-- ==== Sys2Proof/Word.lean ====
section
/-! DEFINITION. The word types of the VCD block: the 32-bit registers of the host window, the 8-bit registers of
the peripheral and the 31-bit volume magnitudes (spec 00_scope.md rules R9, R11, R12). -/

namespace Sys2Proof

/-- A register of the host window, a command word or an operand: 32 bits (R11, R23). -/
abbrev Word := BitVec 32

/-- A peripheral register's contents, or a peripheral register's index: 8 bits (R11, R63). -/
abbrev Byte := BitVec 8

/-- A linear volume magnitude: 31 bits (R9, R120). -/
abbrev Magnitude := BitVec 31

end Sys2Proof
end

