-- ==== Sys2Proof/Config.lean ====
section
/-! DEFINITION. What is fixed when the block is attached (spec 00_scope.md rule R10, 10_state.md rules R34 to R36),
the names the registry and the port use, and the OPEN parameters and free values, each an opaque constant with no
body, so that no proof can see what it is. -/

namespace Sys2Proof

/-- The 21 logical controls of the registry, by their names of R94 and R140. -/
inductive Control where
  | volume
  | mute
  | spdifForce
  | deemphDisable
  | jitterReduction
  | daiFormat
  | wordWidth
  | deemphRate
  | dpllCoarse
  | mclkNotch
  | firRolloff
  | iirBandwidth
  | differential
  | inputRemap
  | outputRemap
  | monoPhase
  | spdifAutodetect
  | dpllReset
  | osfBypass
  | spdifChannel
  | dpllAuto
  deriving DecidableEq, Repr

/-- The kinds of a logical control (R140). -/
inductive ControlKind where
  | continuousAttenuation
  | booleanMute
  | enumerated
  deriving DecidableEq, Repr

/-- A row of the control descriptor table (R36, R140): the kind and the bitfield, register, mask and shift. -/
structure Descriptor where
  kind  : ControlKind
  reg   : Byte
  mask  : Byte
  shift : Nat
  deriving DecidableEq, Repr

/-- The operating mode `MODE` (R10). -/
inductive OperatingMode where
  | master
  | slave
  deriving DecidableEq, Repr

/-- The two clock families (R30); `None` of `DS.last_clock_class` is the absent `Option`. -/
inductive Family where
  | family44k1
  | family48k
  deriving DecidableEq, Repr

/-- The clock source of a plan (R189). `internal` is in the source's type and is never produced (R192). -/
inductive ClockSource where
  | external44k1
  | external48k
  | internal
  | slaveUndefined
  deriving DecidableEq, Repr

/-- The configuration and the volume table, supplied at attach and constant while the block is attached
(R10, R34, R35). -/
structure Cfg where
  /-- `REF44_HZ`, 0 = disabled. -/
  ref44 : Word
  /-- `REF48_HZ`, 0 = disabled. -/
  ref48 : Word
  /-- `MODE`. -/
  mode : OperatingMode
  /-- `BCLK_RATIO`, 0 = use the default bit clock. -/
  bclkRatio : Word
  /-- `VOL_REF[0..16]`, under the constraints P0 to P2 of R122 (`Cfg.wellFormed`). -/
  volRef : Vector Magnitude 17
  deriving DecidableEq, Repr

/-- `VOL_REF_EX`, the spec's illustration of a table that satisfies P0 to P3 (R122, 95_test_vectors.md section 0).
DESIGN CHOICE, notes/assumptions/2.md: unsafe as the hardware's table; no statement rests on its entries. -/
def Config.volRefEx : Vector Magnitude 17 :=
  #v[0x7FFFFFFF#31, 0x7A92BE8A#31, 0x75606373#31, 0x70666F75#31, 0x6BA27E65#31, 0x6712460A#31,
     0x62B39508#31, 0x5E8451CF#31, 0x5A827999#31, 0x56AC1F74#31, 0x52FF6B54#31, 0x4F7A9930#31,
     0x4C1BF828#31, 0x48E1E9B9#31, 0x45CAE0F1#31, 0x42D561B3#31, 0x40000000#31]

/-- The configuration of the state after reset: the nominal references (R9, R10) and, DESIGN CHOICE
(notes/assumptions/1.md and 2.md, unsafe), Master mode, ratio 64 and the example table, as the spec's default start
state `S0` has them (95_test_vectors.md section 0). -/
def Config.nominal : Cfg where
  ref44 := 22579200#32
  ref48 := 24576000#32
  mode := .master
  bclkRatio := 64#32
  volRef := Config.volRefEx

/-- How a port transaction ends (R66, R289): answered with success, answered with failure, or never answered. -/
inductive PortOutcome where
  | ok
  | failed
  | never
  deriving DecidableEq, Repr, Inhabited

/-- The draws of one port transaction (R66; 93_implementation_defined.md U5 to U8).
`byte` is the byte a successful read returns, and the byte a register holds after a write that did not succeed.
`held` makes a successful read return the byte the register holds where one is listed: with it, premise M of
95_test_vectors.md (a memory-like peripheral) can be written down; without it the read's byte is `byte`. -/
structure PortAnswer where
  outcome : PortOutcome
  byte    : Byte
  held    : Bool
  deriving DecidableEq, Repr, Inhabited

/-- FREE VALUE (notes/assumptions/3.md): the answer the port gives to a transaction that no answer listed in the
state covers, by a plain counter. Nothing constrains it: any success, byte or silence (R66, R289). -/
opaque Config.freePortAnswer : Nat → PortAnswer

/-- OPEN parameter `PCM_DEFAULT_BCLK(width, rate)` (R10, R184; D20): a total function of its two arguments to a
64-bit bit clock, assumed of nothing else (notes/assumptions/4.md). -/
opaque Config.pcmDefaultBclk : BitVec 8 → BitVec 32 → BitVec 64

/-- OPEN parameter `PERIPH_INIT[0..255]` (R10, R37; U4, D39): the byte each of the peripheral's registers holds before
any transaction writes it. It has no body, so nothing constrains it (notes/assumptions/6.md). -/
opaque Config.periphInit : Vector Byte 256

/-- OPEN parameter `DPLL_PULSE_GAP` (R10, R280; D26): the settle time between DPLL reset assert and deassert. No rule
of the untimed model reads it (U18), and no definition does (notes/assumptions/5.md). -/
opaque Config.dpllPulseGap : Nat

/-- OPEN parameter `CSR_BASE` (R60; D46): the host window's base address. Every rule uses offsets from it (U19), and
so does every definition (notes/assumptions/5.md). -/
opaque Config.csrBase : Nat

end Sys2Proof
end

