-- ==== Sys2Proof/Syntax.lean ====
section
/-! DEFINITION. The commands of the VCD block (spec 30_encoding.md rules R90, R93): one constructor per row of
spec/opcode_table.json. The block fetches no instructions: a command is what the host writes to `CMD` (R3, R22). -/

namespace Sys2Proof

/-- The eleven commands (R93). Only `CTL.RD` and `CTL.WR` use the word's CTL field (R90), so only they carry it;
every other operand comes from `ARG0` and `ARG1` (R92), which are no part of the word. -/
inductive Instr where
  /-- VOL.FWD, OP 0x01 (R125). -/
  | volFwd
  /-- VOL.INV, OP 0x02 (R126). -/
  | volInv
  /-- CTL.RD, OP 0x10, with the control id of its CTL field (R148). -/
  | ctlRd (ctl : BitVec 8)
  /-- CTL.WR, OP 0x11, with the control id of its CTL field (R153). -/
  | ctlWr (ctl : BitVec 8)
  /-- NEG, OP 0x20 (R190). -/
  | neg
  /-- STREAM.START, OP 0x30 (R211). -/
  | streamStart
  /-- STREAM.STOP, OP 0x31 (R212). -/
  | streamStop
  /-- MUTE.SET, OP 0x32 (R213). -/
  | muteSet
  /-- MUTE.CLR, OP 0x33 (R214). -/
  | muteClr
  /-- FMT.SPDIF, OP 0x34 (R215). -/
  | fmtSpdif
  /-- MUTEMODE, OP 0x35 (R216). -/
  | muteMode
  deriving DecidableEq, Repr

end Sys2Proof
end

