-- ==== Sys2Proof/WellFormed.lean ====
section
/-! DEFINITION. The checks on data whose type admits more than the spec does: a command's control id (30_encoding.md
rule R94) and the volume table of a configuration (40_volume.md rule R122). -/

namespace Sys2Proof

/-- A control id names one of the 21 controls: 0x00 to 0x14 (R94, R97 (d)). -/
def controlIdLegal (ctl : BitVec 8) : Bool := decide (ctl ≤ 0x14#8)

/-- A command is well-formed when its control id, if it carries one, is legal (R97 (d)). -/
def Instr.wellFormed : Instr → Bool
  | .ctlRd ctl => controlIdLegal ctl
  | .ctlWr ctl => controlIdLegal ctl
  | .volFwd | .volInv | .neg | .streamStart | .streamStop | .muteSet | .muteClr | .fmtSpdif | .muteMode => true

/-- Entry `j` of the volume table as a natural number; entries beyond 16 do not exist and read as 0. -/
def Cfg.entry (c : Cfg) (j : Nat) : Nat := (c.volRef[j]?.getD 0#31).toNat

/-- P0 and P2 of R122: entry 0 is 0x7FFFFFFF, and entries 0 to 15 strictly decrease. P1 (31 bits) is the type's. -/
def Cfg.wellFormed (c : Cfg) : Bool :=
  decide (c.entry 0 = 0x7FFFFFFF) && (List.range 15).all fun j => decide (c.entry (j + 1) < c.entry j)

/-- P3 of R122, which only the exact round trip of R127 needs. -/
def Cfg.exactTable (c : Cfg) : Bool :=
  ((List.range 15).all fun j => decide (c.entry (j + 1) + 4096 ≤ c.entry j)) && decide (0x40001000 ≤ c.entry 15)

end Sys2Proof
end

