-- ==== Sys2Proof/Decode.lean ====
section
/-! DEFINITION. Decoding a command word, total on every 32-bit word and refusing by name, and the encoder
(spec 30_encoding.md rules R90, R93, R97 to R99). -/

namespace Sys2Proof

/-- Why a word is no command: the sub-codes of `ILLEGAL_CMD` (R97, R240). -/
inductive DecodeError where
  /-- OP is not in the opcode map (R97 (a)). -/
  | badOpcode
  /-- Bits 31:16 are not 0, or CTL is not 0 with a command that has no CTL operand (R97 (b), (c)). -/
  | reservedBits
  /-- `CTL.RD` or `CTL.WR` with CTL above 0x14 (R97 (d)). -/
  | badCtlId
  deriving DecidableEq, Repr

/-- The OP field, bits 7:0 (R90). -/
def opField (w : Word) : BitVec 8 := w.extractLsb' 0 8

/-- The CTL field, bits 15:8 (R90). -/
def ctlField (w : Word) : BitVec 8 := w.extractLsb' 8 8

/-- The reserved field, bits 31:16 (R90). -/
def reservedField (w : Word) : BitVec 16 := w.extractLsb' 16 16

/-- The opcode map of R93; `none` for every other value of OP. -/
def commandOf (op ctl : BitVec 8) : Option Instr :=
  if op = 0x01#8 then some .volFwd
  else if op = 0x02#8 then some .volInv
  else if op = 0x10#8 then some (.ctlRd ctl)
  else if op = 0x11#8 then some (.ctlWr ctl)
  else if op = 0x20#8 then some .neg
  else if op = 0x30#8 then some .streamStart
  else if op = 0x31#8 then some .streamStop
  else if op = 0x32#8 then some .muteSet
  else if op = 0x33#8 then some .muteClr
  else if op = 0x34#8 then some .fmtSpdif
  else if op = 0x35#8 then some .muteMode
  else none

/-- Whether a command has a CTL operand (R90, R97 (c)). -/
def Instr.usesCtl : Instr → Bool
  | .ctlRd _ | .ctlWr _ => true
  | .volFwd | .volInv | .neg | .streamStart | .streamStop | .muteSet | .muteClr | .fmtSpdif | .muteMode => false

/-- Decode in the order of R98: the opcode, then the reserved bits, then the CTL field. -/
def decode (w : Word) : Except DecodeError Instr :=
  match commandOf (opField w) (ctlField w) with
  | none => .error .badOpcode
  | some i =>
    if reservedField w ≠ 0#16 then .error .reservedBits
    else if i.usesCtl then (if controlIdLegal (ctlField w) then .ok i else .error .badCtlId)
    else if ctlField w ≠ 0#8 then .error .reservedBits
    else .ok i

/-- The decoder's answer for an instruction of the opcode table, whose `nbits` bits are `w` (bit 0 the least
significant). A command is one 32-bit word (R99), so the bits above `nbits` are 0. -/
def decodeTableWord (nbits w : Nat) : Option Instr :=
  match decode (BitVec.ofNat 32 (w % 2 ^ nbits)) with
  | .ok i => some i
  | .error _ => none

/-- The opcode of a command (R93). -/
def opcodeOf : Instr → BitVec 8
  | .volFwd => 0x01#8
  | .volInv => 0x02#8
  | .ctlRd _ => 0x10#8
  | .ctlWr _ => 0x11#8
  | .neg => 0x20#8
  | .streamStart => 0x30#8
  | .streamStop => 0x31#8
  | .muteSet => 0x32#8
  | .muteClr => 0x33#8
  | .fmtSpdif => 0x34#8
  | .muteMode => 0x35#8

/-- The CTL field of a command's word (R90). -/
def ctlOf : Instr → BitVec 8
  | .ctlRd ctl => ctl
  | .ctlWr ctl => ctl
  | .volFwd | .volInv | .neg | .streamStart | .streamStop | .muteSet | .muteClr | .fmtSpdif | .muteMode => 0#8

/-- The word of a command: 16 reserved zero bits, CTL, OP (R90). -/
def encode (i : Instr) : Word := 0#16 ++ ctlOf i ++ opcodeOf i

end Sys2Proof
end

