-- ==== Sys2Proof/Machine/State.lean ====
section
/-! DEFINITION. The state of the machine as plain data (spec 10_state.md), its value after reset (rule R40), and the
reasons a step can stop. Beside the block's own state it holds what the rules make every run depend on: the
peripheral's registers as the port transactions left them and the transactions issued (R291), the port's answers
(R66) and the host's moves (R20). -/

namespace Sys2Proof.Machine

/-- Why the machine stops. -/
inductive Fault where
  /-- Raised by `step` when the block is BUSY with a transaction the port never answered and the host makes no move:
  nothing can take a step (R289, U8). Safe: the hardware stays as it is for ever. -/
  | portNeverAnswers
  deriving DecidableEq, Repr

/-- Why the machine refuses a step. -/
inductive Refusal where
  /-- Raised by an arm of `exec` whose instruction has no meaning yet. Safe. No arm raises it. -/
  | notModelled (mnemonic : String)
  /-- Raised by `step` for a host access that is narrower than 32 bits, misaligned or beyond offset 0x3C: it reaches
  no register and R61 and R260 (b) ask a model to refuse it. Safe. -/
  | noWindowRegister
  /-- Raised by `step` for a host access or a detach while no block is attached: there is no block to reach
  (R272). Safe. -/
  | notAttached
  /-- Raised by `step` for an attach while the block is attached: the host that wants a reset detaches first
  (R270). Safe. -/
  | alreadyAttached
  /-- Raised by `step` for an attach with a volume table that breaks P0 or P2: a model takes only tables that
  satisfy them (R122). Safe. -/
  | volumeTableOutsideSpec
  deriving DecidableEq, Repr

/-- The control state of the command engine (R22). -/
inductive Fsm where
  | idle
  | busy
  deriving DecidableEq, Repr

/-- What a command reports in `STATUS.ERR` and `STATUS.SUB`: one constructor per row of the table of R240, so that
no other pair of codes can be written (U14). -/
inductive Report where
  /-- ERR 0, SUB 0. -/
  | ok
  /-- CONFIG, OUT_OF_RANGE. -/
  | outOfRange
  /-- CONFIG, UNSUPPORTED_RATE. -/
  | unsupportedRate
  /-- CONFIG, DIVIDE_BY_ZERO. -/
  | divideByZero
  /-- CONFIG, DIVISOR_ZERO. -/
  | divisorZero
  /-- CONFIG, BAD_FORMAT. -/
  | badFormat
  /-- TRANSPORT, READ. -/
  | transportRead
  /-- TRANSPORT, WRITE. -/
  | transportWrite
  /-- UNSUPPORTED_OP, reserved and never raised (R246). -/
  | unsupportedOp
  /-- ILLEGAL_CMD, BAD_OPCODE. -/
  | badOpcode
  /-- ILLEGAL_CMD, BAD_CTL_ID. -/
  | badCtlId
  /-- ILLEGAL_CMD, RESERVED_BITS. -/
  | reservedBits
  deriving DecidableEq, Repr

/-- The fields of `STATUS` (R25) but BUSY, which is `Fsm`, and the reserved bits 7:5, which read 0. ERR and SUB are
the two codes of `report`. -/
structure Status where
  done     : Bool
  isPartial : Bool
  degraded : Bool
  overrun  : Bool
  report   : Report
  lastOp   : Byte
  failAddr : Byte
  deriving DecidableEq, Repr

/-- The idle-mute policy `DS.mute_mode` (R29). -/
inductive MuteMode where
  | never
  | onIdle
  deriving DecidableEq, Repr

/-- DeviceState (R27 to R30). -/
structure DeviceState where
  forceMute   : Bool
  streamMuted : Bool
  muteMode    : MuteMode
  /-- `DS.last_clock_class`; `none` is the spec's `None`. -/
  lastClass   : Option Family
  deriving DecidableEq, Repr

/-- One transaction of the Register Access Port, with its answer (R64, R65). -/
inductive PortEvent where
  | readOk (a b : Byte)
  | readFailed (a : Byte)
  | readUnanswered (a : Byte)
  | writeOk (a v : Byte)
  | writeFailed (a v : Byte)
  | writeUnanswered (a v : Byte)
  deriving DecidableEq, Repr

/-- The sixteen registers of the host window, by their names of R23. -/
inductive WinReg where
  | cmd
  | arg0
  | arg1
  | status
  | res0
  | res1
  | res2
  | res3
  | res4
  | devstate
  | cfgRef44
  | cfgRef48
  | cfgBclkRatio
  | cfgMode
  | reserved38
  | reserved3C
  deriving DecidableEq, Repr

/-- A host access that reaches a register of the window (R60). -/
inductive WinAccess where
  | read (r : WinReg)
  | write (r : WinReg) (v : Word)
  deriving DecidableEq, Repr

/-- A move of the host (R290): an access to the window at a byte offset with a size in bytes, which may reach no
register (R61); reads of `STATUS` until one shows DONE = 1 (R100), one read a step; an attach with its configuration
(R270); a detach (R272). -/
inductive HostMove where
  | read (offset size : Nat)
  | write (offset size : Nat) (v : Word)
  | readUntilDone
  | attach (cfg : Cfg)
  | detach
  deriving DecidableEq, Repr

/-- The host (R20): the moves it still makes, oldest first; the accesses it makes while a command runs, one list for
each point at which the command can be seen BUSY, oldest first; for each port transaction from now, next one first,
whether it detaches the block before that transaction is issued (R272), no where none is listed; and the word its last
read returned. -/
structure HostSide where
  moves     : List HostMove
  meanwhile : List (List WinAccess)
  departs   : List Bool
  rdata     : Word
  deriving DecidableEq, Repr

/-- The Register Access Port: the answers already fixed, next one first, and the number of transactions answered so
far, to which the free value `Config.freePortAnswer` is applied where no answer is fixed
(notes/assumptions/3.md). -/
structure PortSide where
  answers : List PortAnswer
  drawn   : Nat
  deriving DecidableEq, Repr

/-- Registers as (index, byte) pairs, indices rising. -/
abbrev Memory := List Host.Cell

/-- The peripheral's 256 registers (R63): `PERIPH_INIT`, which no step changes (R10), and the registers whose byte the
transactions left different from it (R37). -/
structure Peripheral where
  init  : Vector Byte 256
  cells : Memory
  deriving DecidableEq, Repr

/-- The machine. -/
structure State where
  /-- Whether a block is attached (R270, R272). -/
  attached : Bool
  /-- The control state (R22). -/
  fsm : Fsm
  /-- The command word latched at acceptance (R91). -/
  cmdWord : Word
  /-- `ARG0` as latched at acceptance (R91, R78). -/
  opArg0 : Word
  /-- `ARG1` as latched at acceptance (R91, R78). -/
  opArg1 : Word
  /-- The position in the command's plan: how many transactions it has issued (R22, R38 (a)). -/
  planPos : Nat
  /-- The per-command flag `wrote_any` (R38 (b)). -/
  wroteAny : Bool
  /-- `ARG0` (R21, R23). -/
  arg0 : Word
  /-- `ARG1` (R21, R23). -/
  arg1 : Word
  /-- `RES0` (R21, R23). -/
  res0 : Word
  /-- `RES1` (R21, R23). -/
  res1 : Word
  /-- `RES2` (R21, R23). -/
  res2 : Word
  /-- `RES3` (R21, R23). -/
  res3 : Word
  /-- `RES4` (R21, R23). -/
  res4 : Word
  /-- `STATUS` (R25). -/
  status : Status
  /-- `DEVSTATE` as the host reads it: the image of R26, written when a command ends (R76; DEDUCED,
  notes/assumptions/7.md). -/
  devstate : Word
  /-- DeviceState (R27 to R30). -/
  ds : DeviceState
  /-- The configuration and the volume table (R34, R35), read back by the `CFG_*` registers (R23). -/
  cfg : Cfg
  /-- The peripheral's registers (R63, R291). -/
  periph : Peripheral
  /-- The port transactions issued so far, oldest first (R38 (a), R291). -/
  log : List PortEvent
  /-- The port's answers (R66). -/
  port : PortSide
  /-- The host (R20). -/
  host : HostSide
  deriving DecidableEq, Repr

/-- DeviceState after attach (R40). -/
def DeviceState.atAttach : DeviceState where
  forceMute := false
  streamMuted := true
  muteMode := .onIdle
  lastClass := none

/-- `STATUS` after attach: the word 0 (R40). -/
def Status.atAttach : Status where
  done := false
  isPartial := false
  degraded := false
  overrun := false
  report := .ok
  lastOp := 0#8
  failAddr := 0#8

/-- The machine right after the block is attached with configuration `c` (R40, R270): the host still silent, no
transaction issued, every register of the peripheral at `PERIPH_INIT`, a free value (notes/assumptions/6.md). -/
def State.atAttach (c : Cfg) : State where
  attached := true
  fsm := .idle
  cmdWord := 0#32
  opArg0 := 0#32
  opArg1 := 0#32
  planPos := 0
  wroteAny := false
  arg0 := 0#32
  arg1 := 0#32
  res0 := 0#32
  res1 := 0#32
  res2 := 0#32
  res3 := 0#32
  res4 := 0#32
  status := Status.atAttach
  devstate := 0x0000000E#32
  ds := DeviceState.atAttach
  cfg := c
  periph := { init := Config.periphInit, cells := [] }
  log := []
  port := { answers := [], drawn := 0 }
  host := { moves := [], meanwhile := [], departs := [], rdata := 0#32 }

/-- The machine right after reset, which is attach (R40, R270), with the configuration of `Config.nominal`
(notes/assumptions/1.md and 2.md). -/
def State.reset : State := State.atAttach Config.nominal

end Sys2Proof.Machine
end

