-- ==== Sys2Proof/Machine/Operands.lean ====
section
/-! DEFINITION. The operand forms of the commands (spec 30_encoding.md rules R92, R94, R95), each read from the operands
latched at acceptance (R91), and the control descriptor table with its legal values (41_control_registry.md rules
R140, R143). -/

namespace Sys2Proof.Machine

/-- The greatest attenuation index, `MAXATTEN` (R9). -/
def maxAtten : Nat := 199

/-- The magnitude operand of `VOL.INV`: bits 30:0 of ARG0, bit 31 ignored (R92, R126). -/
def magnitudeOperand (v : Word) : Magnitude := v.extractLsb' 0 31

/-- The policy operand of `MUTEMODE`: bit 0 of ARG0; `none` when bits 31:1 are not all 0 (R92, R216). -/
def muteModeOperand (v : Word) : Option MuteMode :=
  if v.extractLsb' 1 31 ≠ 0#31 then none else some (if v.getLsbD 0 then .onIdle else .never)

/-- A sample format (R95): PCM with the byte passed to the default bit clock, or DSD with its bits per symbol. -/
inductive SampleFormat where
  | pcm (width : BitVec 8)
  | dsd (bitsPerSymbol : Nat)
  deriving DecidableEq, Repr

/-- The format operand of `NEG`: FCLASS 7:0, PCM_WIDTH 15:8, reserved 31:16; `none` for an illegal class or nonzero
reserved bits (R95, R181). -/
def formatOperand (v : Word) : Option SampleFormat :=
  if v.extractLsb' 16 16 ≠ 0#16 then none
  else if v.extractLsb' 0 8 = 0x00#8 then some (.pcm (v.extractLsb' 8 8))
  else if v.extractLsb' 0 8 = 0x01#8 then some (.dsd 8)
  else if v.extractLsb' 0 8 = 0x02#8 then some (.dsd 16)
  else if v.extractLsb' 0 8 = 0x03#8 then some (.dsd 32)
  else none

/-- The control a CTL field names; `none` above 0x14 (R94, R97 (d)). -/
def controlOfId (ctl : BitVec 8) : Option Control :=
  match ctl.toNat with
  | 0x00 => some .volume
  | 0x01 => some .mute
  | 0x02 => some .spdifForce
  | 0x03 => some .deemphDisable
  | 0x04 => some .jitterReduction
  | 0x05 => some .daiFormat
  | 0x06 => some .wordWidth
  | 0x07 => some .deemphRate
  | 0x08 => some .dpllCoarse
  | 0x09 => some .mclkNotch
  | 0x0A => some .firRolloff
  | 0x0B => some .iirBandwidth
  | 0x0C => some .differential
  | 0x0D => some .inputRemap
  | 0x0E => some .outputRemap
  | 0x0F => some .monoPhase
  | 0x10 => some .spdifAutodetect
  | 0x11 => some .dpllReset
  | 0x12 => some .osfBypass
  | 0x13 => some .spdifChannel
  | 0x14 => some .dpllAuto
  | _ => none

/-- The CTL field of a control's name (R94): its place in the registry. -/
def controlId : Control → BitVec 8
  | .volume => 0x00#8
  | .mute => 0x01#8
  | .spdifForce => 0x02#8
  | .deemphDisable => 0x03#8
  | .jitterReduction => 0x04#8
  | .daiFormat => 0x05#8
  | .wordWidth => 0x06#8
  | .deemphRate => 0x07#8
  | .dpllCoarse => 0x08#8
  | .mclkNotch => 0x09#8
  | .firRolloff => 0x0A#8
  | .iirBandwidth => 0x0B#8
  | .differential => 0x0C#8
  | .inputRemap => 0x0D#8
  | .outputRemap => 0x0E#8
  | .monoPhase => 0x0F#8
  | .spdifAutodetect => 0x10#8
  | .dpllReset => 0x11#8
  | .osfBypass => 0x12#8
  | .spdifChannel => 0x13#8
  | .dpllAuto => 0x14#8

/-- The control descriptor table (R36, R140). VOLUME's register is the first of its four, 23 to 20. -/
def descriptor : Control → Descriptor
  | .volume          => ⟨.continuousAttenuation, 23#8, 0xFF#8, 0⟩
  | .mute            => ⟨.booleanMute, 10#8, 0x01#8, 0⟩
  | .spdifForce      => ⟨.enumerated, 8#8, 0x80#8, 7⟩
  | .deemphDisable   => ⟨.enumerated, 10#8, 0x02#8, 1⟩
  | .jitterReduction => ⟨.enumerated, 10#8, 0x04#8, 2⟩
  | .daiFormat       => ⟨.enumerated, 10#8, 0x30#8, 4⟩
  | .wordWidth       => ⟨.enumerated, 10#8, 0xC0#8, 6⟩
  | .deemphRate      => ⟨.enumerated, 11#8, 0x03#8, 0⟩
  | .dpllCoarse      => ⟨.enumerated, 11#8, 0x1C#8, 2⟩
  | .mclkNotch       => ⟨.enumerated, 12#8, 0x1F#8, 0⟩
  | .firRolloff      => ⟨.enumerated, 14#8, 0x01#8, 0⟩
  | .iirBandwidth    => ⟨.enumerated, 14#8, 0x06#8, 1⟩
  | .differential    => ⟨.enumerated, 14#8, 0x08#8, 3⟩
  | .inputRemap      => ⟨.enumerated, 14#8, 0xF0#8, 4⟩
  | .outputRemap     => ⟨.enumerated, 15#8, 0xFF#8, 0⟩
  | .monoPhase       => ⟨.enumerated, 17#8, 0x83#8, 0⟩
  | .spdifAutodetect => ⟨.enumerated, 17#8, 0x08#8, 3⟩
  | .dpllReset       => ⟨.enumerated, 17#8, 0x20#8, 5⟩
  | .osfBypass       => ⟨.enumerated, 17#8, 0x40#8, 6⟩
  | .spdifChannel    => ⟨.enumerated, 18#8, 0xFF#8, 0⟩
  | .dpllAuto        => ⟨.enumerated, 25#8, 0x03#8, 0⟩

/-- The greatest legal value of a control; for MONO_PHASE it is the greatest of its patterns (R140). -/
def greatestLegal : Control → Nat
  | .volume => maxAtten
  | .mute | .spdifForce | .deemphDisable | .jitterReduction | .firRolloff | .differential
  | .spdifAutodetect | .dpllReset | .osfBypass => 1
  | .daiFormat => 2
  | .wordWidth | .deemphRate | .iirBandwidth | .outputRemap | .dpllAuto => 3
  | .dpllCoarse | .spdifChannel => 7
  | .inputRemap => 15
  | .mclkNotch => 31
  | .monoPhase => 0x83

/-- The range check on the full 32-bit value (R140, R143): MONO_PHASE takes any pattern of bits 7, 1 and 0, every
other control the values up to its greatest. -/
def legalValue (c : Control) (v : Word) : Bool :=
  match c with
  | .monoPhase => decide (v &&& 0xFFFFFF7C#32 = 0#32)
  | _ => decide (v.toNat ≤ greatestLegal c)

/-- The byte written for a control whose register is written as one field (R140, R144): `0x55 * v` for OUTPUT_REMAP,
`1 << v` for SPDIF_CHANNEL, the value itself for every other. The value is range-checked, so each fits a byte
(R16). -/
def writeCode (c : Control) (v : Word) : Byte :=
  match c with
  | .outputRemap => BitVec.ofNat 8 (0x55 * v.toNat)
  | .spdifChannel => BitVec.ofNat 8 (1 <<< v.toNat)
  | _ => BitVec.ofNat 8 v.toNat

/-- The index of the lowest 1 bit of a byte, 0 when there is none (R144, R148). -/
def lowestSetBit (b : Byte) : Nat := ((List.range 8).find? fun i => b.getLsbD i).getD 0

end Sys2Proof.Machine
end

