-- ==== Sys2Proof/Machine/Flags.lean ====
section
/-! DEFINITION. The fields the engine computes: effective mute (spec 10_state.md rule R31), the codes of an error
report (60_exceptions.md rule R240), and the words of `STATUS`, `DEVSTATE` and the `CFG_*` registers (R23, R25, R26). -/

namespace Sys2Proof.Machine

/-- A flag as a 32-bit word. -/
def bitWord (b : Bool) : Word := if b then 1#32 else 0#32

/-- Effective mute, computed whenever it is read (R31). -/
def DeviceState.eff (d : DeviceState) : Bool := d.forceMute || (decide (d.muteMode = .onIdle) && d.streamMuted)

/-- `STATUS.ERR` of a report (R240). -/
def Report.err : Report → BitVec 4
  | .ok => 0
  | .outOfRange | .unsupportedRate | .divideByZero | .divisorZero | .badFormat => 1
  | .transportRead | .transportWrite => 2
  | .unsupportedOp => 3
  | .badOpcode | .badCtlId | .reservedBits => 4

/-- `STATUS.SUB` of a report (R240). -/
def Report.sub : Report → BitVec 4
  | .ok => 0
  | .outOfRange => 1
  | .unsupportedRate => 2
  | .divideByZero => 3
  | .divisorZero => 4
  | .badFormat => 5
  | .transportRead => 1
  | .transportWrite => 2
  | .unsupportedOp => 0
  | .badOpcode => 1
  | .badCtlId => 2
  | .reservedBits => 3

/-- Whether a report is of class TRANSPORT (R245). -/
def Report.isTransport : Report → Bool
  | .transportRead | .transportWrite => true
  | .ok | .outOfRange | .unsupportedRate | .divideByZero | .divisorZero | .badFormat
  | .unsupportedOp | .badOpcode | .badCtlId | .reservedBits => false

/-- The word the host reads at `STATUS`: FAIL_ADDR 31:24, LAST_OP 23:16, SUB 15:12, ERR 11:8, reserved 7:5, OVERRUN,
DEGRADED, PARTIAL, DONE, BUSY (R25). -/
def statusWord (fsm : Fsm) (t : Status) : Word :=
  t.failAddr ++ t.lastOp ++ t.report.sub ++ t.report.err ++ 0#3 ++ BitVec.ofBool t.overrun ++ BitVec.ofBool t.degraded
    ++ BitVec.ofBool t.isPartial ++ BitVec.ofBool t.done ++ BitVec.ofBool (decide (fsm = .busy))

/-- `DEVSTATE.LAST_CLASS` (R26). -/
def lastClassCode : Option Family → BitVec 2
  | none => 0
  | some .family44k1 => 1
  | some .family48k => 2

/-- The image of DeviceState: reserved 31:6, LAST_CLASS 5:4, EFF_MUTE, MUTE_MODE, STREAM_MUTED, FORCE_MUTE (R26). -/
def DeviceState.image (d : DeviceState) : Word :=
  0#26 ++ lastClassCode d.lastClass ++ BitVec.ofBool d.eff ++ BitVec.ofBool (decide (d.muteMode = .onIdle))
    ++ BitVec.ofBool d.streamMuted ++ BitVec.ofBool d.forceMute

/-- The word the host reads at `CFG_MODE` (R23). -/
def modeWord : OperatingMode → Word
  | .master => 0#32
  | .slave => 1#32

/-- `RES4[1:0]`, the code of a clock source (R189). -/
def sourceCode : ClockSource → BitVec 2
  | .external44k1 => 0
  | .external48k => 1
  | .internal => 2
  | .slaveUndefined => 3

/-- The word `NEG` reports in `RES4`: bit 2 the relock, bits 1:0 the source (R189). -/
def planWord (relock : Bool) (source : ClockSource) : Word := 0#29 ++ BitVec.ofBool relock ++ sourceCode source

end Sys2Proof.Machine
end

