-- ==== Sys2Proof/Machine/Memory.lean ====
section
/-! DEFINITION. Reading and writing the peripheral's register file as data (spec 20_memory.md rule R63), in the one
canonical form of `Memory.wf`. Only a port transaction changes it (`Machine/Ops.lean`). -/

namespace Sys2Proof.Machine

/-- The byte listed at an index. -/
def Memory.find : Memory → Nat → Option Byte
  | [], _ => none
  | (b, w) :: rest, a => if a = b then some w else Memory.find rest a

/-- The cells with byte `v` listed at index `a`. -/
def Memory.insert : Memory → Nat → Byte → Memory
  | [], a, v => [(a, v)]
  | (b, w) :: rest, a, v =>
    if a < b then (a, v) :: (b, w) :: rest
    else if a = b then (a, v) :: rest
    else (b, w) :: Memory.insert rest a v

/-- The cells with nothing listed at index `a`. -/
def Memory.erase (m : Memory) (a : Nat) : Memory := m.filter fun c => decide (c.1 ≠ a)

/-- The canonical form: indices strictly rising, each the index of one of the 256 registers (R63), and no register listed
with the byte it reads as when it is not listed. -/
def Memory.wf (init : Vector Byte 256) (m : Memory) : Bool :=
  decide (m.Pairwise fun x y => x.1 < y.1) && m.all fun c => decide (c.1 < 256 ∧ init[c.1]? ≠ some c.2)

/-- What a register that is not listed reads as: its entry of `PERIPH_INIT` (R37). -/
def Peripheral.unlisted (p : Peripheral) (a : Byte) : Byte := p.init[a.toNat]'a.isLt

/-- The byte a register holds. -/
def Peripheral.read (p : Peripheral) (a : Byte) : Byte := (p.cells.find a.toNat).getD (p.unlisted a)

/-- The register file with byte `v` in register `a`. -/
def Peripheral.write (p : Peripheral) (a v : Byte) : Peripheral :=
  { p with cells := if v = p.unlisted a then p.cells.erase a.toNat else p.cells.insert a.toNat v }

/-- The listed registers are in the canonical form. -/
def Peripheral.wf (p : Peripheral) : Bool := Memory.wf p.init p.cells

end Sys2Proof.Machine
end

