-- ==== Sys2Proof/Machine/Ops.lean ====
section
/-! DEFINITION. The operations the commands share: the two port transactions (spec 20_memory.md rules R64 to R66), the
field write and read (41_control_registry.md rules R141, R142), raising an error (00_scope.md rule R14), how a command
is accepted (30_encoding.md rule R91) and how it ends (60_exceptions.md rule R241). Ending with an error is this
hardware's only exception: it saves its cause in `STATUS` and control goes nowhere (R241, R249). -/

namespace Sys2Proof.Machine

/-! The host while a command is BUSY. -/

/-- Whether a register's write is dropped, with OVERRUN set, while BUSY (R24). Every other register is read-only or
reserved, and writing it has no effect (R23). -/
def WinReg.droppedWhileBusy : WinReg → Bool
  | .cmd | .arg0 | .arg1 => true
  | .status | .res0 | .res1 | .res2 | .res3 | .res4 | .devstate | .cfgRef44 | .cfgRef48 | .cfgBclkRatio | .cfgMode
  | .reserved38 | .reserved3C => false

/-- What a host read of a register returns; reads have no side effect (R23, R25, R26, R62). -/
def windowRead (r : WinReg) (s : State) : Word :=
  match r with
  | .cmd => 0#32
  | .arg0 => s.arg0
  | .arg1 => s.arg1
  | .status => statusWord s.fsm s.status
  | .res0 => s.res0
  | .res1 => s.res1
  | .res2 => s.res2
  | .res3 => s.res3
  | .res4 => s.res4
  | .devstate => s.devstate
  | .cfgRef44 => s.cfg.ref44
  | .cfgRef48 => s.cfg.ref48
  | .cfgBclkRatio => s.cfg.bclkRatio
  | .cfgMode => modeWord s.cfg.mode
  | .reserved38 => 0#32
  | .reserved3C => 0#32

/-- The host receives the word it read. -/
def State.setRdata (v : Word) (s : State) : State := { s with host := { s.host with rdata := v } }

/-- `STATUS.OVERRUN` is set (R24). -/
def State.setOverrun (s : State) : State := { s with status := { s.status with overrun := true } }

/-- A host access while the block is BUSY (R24, R62, R282). -/
def busyAccess (a : WinAccess) (s : State) : State :=
  match a with
  | .read r => s.setRdata (windowRead r s)
  | .write r _ => if r.droppedWhileBusy then s.setOverrun else s

/-- The host accesses `as`, in order, while the block is BUSY. -/
def busyAccesses (as : List WinAccess) (s : State) : State := as.foldl (fun t a => busyAccess a t) s

/-- The host forgets the accesses of one BUSY point. -/
def State.setMeanwhile (l : List (List WinAccess)) (s : State) : State := { s with host := { s.host with meanwhile := l } }

/-- A point at which a running command can be seen BUSY: after acceptance, and while a transaction is outstanding.
The host makes the accesses its state lists for this point, none if it lists none (R282, R290). -/
def busyPoint (s : State) : State :=
  match s.host.meanwhile with
  | [] => s
  | as :: rest => busyAccesses as (s.setMeanwhile rest)

/-! The port. -/

/-- The port's answer to the `k`-th transaction from now: the one fixed in the state, or the free value (R66). -/
def State.answerAt (s : State) (k : Nat) : PortAnswer :=
  s.port.answers[k]?.getD (Config.freePortAnswer (s.port.drawn + k))

/-- What becomes of the `k`-th transaction from now, if the ones before it succeed: its answer (R66, R289), or `none`
where the host detaches the block before it is issued (R272). -/
def State.outcomeAt (s : State) (k : Nat) : Option PortOutcome :=
  if s.host.departs[k]?.getD false then none else some (s.answerAt k).outcome

/-- The next answer is used up, and with it the host's choice to let the transaction be issued. -/
def State.useAnswer (s : State) : State :=
  { s with
    port := { answers := s.port.answers.tail, drawn := s.port.drawn + 1 }
    host := { s.host with departs := s.host.departs.tail } }

/-- The host detaches the block while a command is in progress (R272): no further transaction is issued, and the very
next step is the detach (notes/assumptions/16.md). -/
def State.leave (s : State) : State :=
  { s with host := { s.host with moves := .detach :: s.host.moves, departs := s.host.departs.tail } }

/-- The byte a successful read of register `a` returns: a draw, or, where the answer says so, the byte the register
holds (R66, U6). -/
def readByte (ans : PortAnswer) (p : Peripheral) (a : Byte) : Byte := if ans.held then p.read a else ans.byte

/-- A transaction is issued: it enters the log and the plan goes one position on (R22, R38 (a)). -/
def State.issued (e : PortEvent) (s : State) : State := { s with log := s.log ++ [e], planPos := s.planPos + 1 }

/-- Register `a` of the peripheral holds `v`. -/
def State.setPeriph (a v : Byte) (s : State) : State := { s with periph := s.periph.write a v }

/-- `wrote_any` is set (R65). -/
def State.setWroteAny (s : State) : State := { s with wroteAny := true }

/-- How a command's plan goes on after some of its steps: it has a value, it raised an error (R14) with the address of
a failed transaction (0 if there is none), or it stopped with the command in progress: it waits for an answer that never
comes (R289), or the host detaches the block (R272). -/
inductive PlanResult (α : Type) where
  | done (a : α) (s : State)
  | raised (e : Report) (addr : Byte) (s : State)
  | stopped (s : State)

/-- A step of a plan. -/
abbrev Plan (α : Type) := State → PlanResult α

/-- The plan that does nothing. -/
def planPure {α : Type} (a : α) : Plan α := fun s => .done a s

/-- One plan after another; a raised error, a silent port or a detach ends it, and no later step runs (R15, R248,
R272). -/
def planBind {α β : Type} (p : Plan α) (f : α → Plan β) : Plan β := fun s =>
  match p s with
  | .done a t => f a t
  | .raised e addr t => .raised e addr t
  | .stopped t => .stopped t

/-- `MemRead(a, 1)` (R64, R66), unless the host detaches before it (R272). -/
def memRead (a : Byte) : Plan Byte := fun s =>
  let ans := s.answerAt 0
  let t := busyPoint s.useAnswer
  match s.outcomeAt 0 with
  | none => .stopped s.leave
  | some .ok => .done (readByte ans s.periph a) (t.issued (.readOk a (readByte ans s.periph a)))
  | some .failed => .raised .transportRead a (t.issued (.readFailed a))
  | some .never => .stopped (t.issued (.readUnanswered a))

/-- `MemWrite(a, 1, v)` (R65, R66), unless the host detaches before it (R272). After a write that did not succeed the
register holds a free byte (R66, U7); so it does after one that was never answered (notes/assumptions/8.md). -/
def memWrite (a v : Byte) : Plan Unit := fun s =>
  let ans := s.answerAt 0
  let t := busyPoint s.useAnswer
  match s.outcomeAt 0 with
  | none => .stopped s.leave
  | some .ok => .done () ((t.setPeriph a v).setWroteAny.issued (.writeOk a v))
  | some .failed => .raised .transportWrite a ((t.setPeriph a ans.byte).issued (.writeFailed a v))
  | some .never => .stopped ((t.setPeriph a ans.byte).issued (.writeUnanswered a v))

/-- The byte a field write stores over the byte `b` it read (R141). -/
def fieldByte (mask : Byte) (shift : Nat) (code b : Byte) : Byte := (b &&& ~~~mask) ||| ((code <<< shift) &&& mask)

/-- `FieldWrite(reg, mask, shift, code)` (R141). -/
def fieldWrite (reg mask : Byte) (shift : Nat) (code : Byte) : Plan Unit :=
  if mask = 0xFF#8 then memWrite reg code
  else planBind (memRead reg) fun b => memWrite reg (fieldByte mask shift code b)

/-- `FieldRead(reg, mask, shift)` (R142). -/
def fieldRead (reg mask : Byte) (shift : Nat) : Plan Byte :=
  planBind (memRead reg) fun b => planPure ((b &&& mask) >>> shift)

/-! DeviceState and the results. -/

/-- DeviceState becomes `d`. -/
def State.setDs (d : DeviceState) (s : State) : State := { s with ds := d }

/-- `RES0` becomes `v`. -/
def State.setRes0 (v : Word) (s : State) : State := { s with res0 := v }

/-- `RES0` to `RES4` become a clock plan's words (R189). -/
def State.setRes (v0 v1 v2 v3 v4 : Word) (s : State) : State :=
  { s with res0 := v0, res1 := v1, res2 := v2, res3 := v3, res4 := v4 }

/-- `STATUS.DEGRADED` is set (R150). -/
def State.setDegraded (s : State) : State := { s with status := { s.status with degraded := true } }

/-! The life of a command. -/

/-- Acceptance of the word `w` (R91). The latched CTL field is part of the latched word. -/
def accept (w : Word) (s : State) : State :=
  { s with
    fsm := .busy
    cmdWord := w
    opArg0 := s.arg0
    opArg1 := s.arg1
    planPos := 0
    wroteAny := false
    status :=
      { done := false, isPartial := false, degraded := false, overrun := false, report := .ok,
        lastOp := w.extractLsb' 0 8, failAddr := 0#8 } }

/-- `EndCommand` but for the results, which its callers write just before (R241): the report, the address of the
failed transaction, PARTIAL by R245, DONE, and the engine back to IDLE; `DEVSTATE` shows DeviceState as it stands. -/
def endCommand (e : Report) (addr : Byte) (s : State) : State :=
  { s with
    fsm := .idle
    devstate := s.ds.image
    status :=
      { s.status with done := true, isPartial := e.isTransport && s.wroteAny, report := e, failAddr := addr } }

/-- A plan's end: its results are written only if it raised nothing (R96); a plan that stopped leaves the block
BUSY (R289, R272). -/
def finish {α : Type} (put : α → State → State) (r : PlanResult α) : State :=
  match r with
  | .done a s => endCommand .ok 0#8 (put a s)
  | .raised e addr s => endCommand e addr s
  | .stopped s => s

/-- A plan's end where it has no results. -/
def finishPlain (r : PlanResult Unit) : State := finish (fun _ s => s) r

/-- The end of `CTL.RD`: a failed read degrades to the value 0, which is no error (R148, R150, R243). -/
def finishRead (r : PlanResult Word) : State :=
  match r with
  | .done v s => endCommand .ok 0#8 (s.setRes0 v)
  | .raised _ addr s => endCommand .ok addr (s.setDegraded.setRes0 0#32)
  | .stopped s => s

end Sys2Proof.Machine
end

