-- ==== Sys2Proof/Machine/Negotiator.lean ====
section
/-! DEFINITION. The clock negotiator: family selection, bit clock, divisor, relock pulse and the command NEG (spec
42_clock_negotiator.md). All arithmetic is exact on natural numbers (R13, R16). -/

namespace Sys2Proof.Machine

/-- A clock plan (R189), with the family it chose, if any. -/
structure ClockPlan where
  sysclk  : Nat
  source  : ClockSource
  family  : Option Family
  bclk    : Nat
  divisor : Nat
  deriving DecidableEq, Repr

/-- `SelectMaster(rate)`: the first enabled reference that is a multiple of the rate, 44.1 first (R182); `none` where
the rate is unsupported. -/
def selectMaster (c : Cfg) (rate : Nat) : Option (ClockSource × Nat × Family) :=
  if rate = 0 then none
  else if c.ref44.toNat ≠ 0 ∧ c.ref44.toNat % rate = 0 then some (.external44k1, c.ref44.toNat, .family44k1)
  else if c.ref48.toNat ≠ 0 ∧ c.ref48.toNat % rate = 0 then some (.external48k, c.ref48.toNat, .family48k)
  else none

/-- Family selection in either mode: in Slave mode it always succeeds with system clock 0 and no family (R183). -/
def selectClock (c : Cfg) (rate : Nat) : Option (ClockSource × Nat × Option Family) :=
  match c.mode with
  | .slave => some (.slaveUndefined, 0, none)
  | .master => (selectMaster c rate).map fun r => (r.1, r.2.1, some r.2.2)

/-- `BitClock(rate, format)` (R184). -/
def bitClock (c : Cfg) (rate : Word) (f : SampleFormat) : Nat :=
  match f with
  | .dsd bits => bits * rate.toNat
  | .pcm width =>
    if c.bclkRatio.toNat ≠ 0 then c.bclkRatio.toNat * rate.toNat
    else (Config.pcmDefaultBclk width rate).toNat

/-- The divisor for a bit clock that is not 0: round to nearest, halves up (R185). -/
def clockDivisor (sysclk bclk : Nat) : Nat := (sysclk + bclk / 2) / bclk

/-- The computation of a plan, with its checks in the order of R190 and R247. -/
def planClock (c : Cfg) (rate format : Word) : Except Report ClockPlan :=
  match formatOperand format with
  | none => .error .badFormat
  | some f =>
    match selectClock c rate.toNat with
    | none => .error .unsupportedRate
    | some (source, sysclk, family) =>
      let bclk := bitClock c rate f
      if bclk = 0 then .error .divideByZero
      else if clockDivisor sysclk bclk = 0 ∧ sysclk ≠ 0 then .error .divisorZero
      else .ok { sysclk := sysclk, source := source, family := family, bclk := bclk, divisor := clockDivisor sysclk bclk }

/-- `RelockPulse(family)`: assert DPLL_RESET, deassert it, and only then record the family (R188). -/
def relockPulse (f : Family) : Plan Unit :=
  planBind (fieldWrite 17#8 0x20#8 5 1#8) fun _ =>
  planBind (fieldWrite 17#8 0x20#8 5 0#8) fun _ =>
  fun s => .done () (s.setDs { s.ds with lastClass := some f })

/-- The pulse a plan needs: one where it chose a family other than the last (R187); the value says whether it was
performed. -/
def relockIfChanged (family : Option Family) : Plan Bool := fun s =>
  match family with
  | none => .done false s
  | some f =>
    if s.ds.lastClass = some f then .done false s
    else planBind (relockPulse f) (fun _ => planPure true) s

/-- The plan's words in `RES0` to `RES4` (R189). -/
def State.reportPlan (p : ClockPlan) (relock : Bool) (s : State) : State :=
  s.setRes (BitVec.ofNat 32 p.sysclk) (BitVec.ofNat 32 p.bclk) (BitVec.ofNat 32 (p.bclk >>> 32))
    (BitVec.ofNat 32 p.divisor) (planWord relock p.source)

/-- NEG (R190). -/
def execNeg (s : State) : Host.Outcome State Fault Refusal :=
  .next (match planClock s.cfg s.opArg0 s.opArg1 with
    | .error e => endCommand e 0#8 s
    | .ok p => finish (fun relock t => t.reportPlan p relock) (relockIfChanged p.family s))

end Sys2Proof.Machine
end

