-- ==== Sys2Proof/Machine/Sequencer.lean ====
section
/-! DEFINITION. The mute/format sequencer: STREAM.START, STREAM.STOP, MUTE.SET, MUTE.CLR, FMT.SPDIF and MUTEMODE (spec
43_mute_sequencer.md). Every plan updates DeviceState first and then issues its transactions in order (R210). -/

namespace Sys2Proof.Machine

/-- `FieldWrite(MUTE, v)`: register 10 bit 0 (R141). -/
def writeMute (v : Bool) : Plan Unit := fieldWrite 10#8 0x01#8 0 (if v then 1#8 else 0#8)

/-- The unmuting step of STREAM.START and FMT.SPDIF: the bit is cleared unless effective mute holds (R211, R215). -/
def unmuteIfAllowed : Plan Unit := fun s => if s.ds.eff then .done () s else writeMute false s

/-- The step that applies effective mute to the bit (R213, R214, R216). -/
def applyMute : Plan Unit := fun s => writeMute s.ds.eff s

/-- The plan of STREAM.START (R211). -/
def streamStartPlan : Plan Unit := fun s => unmuteIfAllowed (s.setDs { s.ds with streamMuted := false })

/-- The plan of STREAM.STOP (R212). -/
def streamStopPlan : Plan Unit := fun s =>
  let t := s.setDs { s.ds with streamMuted := true }
  if s.ds.muteMode = .onIdle then writeMute true t else .done () t

/-- The plan of MUTE.SET, which `CTL.WR MUTE, 1` runs too (R213, R158). -/
def muteSetPlan : Plan Unit := fun s => applyMute (s.setDs { s.ds with forceMute := true })

/-- The plan of MUTE.CLR, which `CTL.WR MUTE, 0` runs too (R214, R158). -/
def muteClrPlan : Plan Unit := fun s => applyMute (s.setDs { s.ds with forceMute := false })

/-- The plan of FMT.SPDIF: mute, force the SPDIF input, enable its autodetect, unmute if allowed (R215). It changes no
field of DeviceState, so effective mute is the same before, within and after it, also when its first step fails. R284's
table gives effective mute as true there, which R215 does not bring about for a device that is playing, and vector Q19 of
95_test_vectors.md has `DEVSTATE` 0x04 before and after: that the model follows R215 and Q19 is the model's reading (DEDUCED,
notes/assumptions/18.md). -/
def fmtSpdifPlan : Plan Unit :=
  planBind (writeMute true) fun _ =>
  planBind (fieldWrite 8#8 0x80#8 7 1#8) fun _ =>
  planBind (fieldWrite 17#8 0x08#8 3 1#8) fun _ => unmuteIfAllowed

/-- The plan of MUTEMODE once its operand is legal (R216). -/
def muteModePlan (m : MuteMode) : Plan Unit := fun s => applyMute (s.setDs { s.ds with muteMode := m })

/-- STREAM.START (R211). -/
def execStreamStart (s : State) : Host.Outcome State Fault Refusal := .next (finishPlain (streamStartPlan s))

/-- STREAM.STOP (R212). -/
def execStreamStop (s : State) : Host.Outcome State Fault Refusal := .next (finishPlain (streamStopPlan s))

/-- MUTE.SET (R213). -/
def execMuteSet (s : State) : Host.Outcome State Fault Refusal := .next (finishPlain (muteSetPlan s))

/-- MUTE.CLR (R214). -/
def execMuteClr (s : State) : Host.Outcome State Fault Refusal := .next (finishPlain (muteClrPlan s))

/-- FMT.SPDIF (R215). -/
def execFmtSpdif (s : State) : Host.Outcome State Fault Refusal := .next (finishPlain (fmtSpdifPlan s))

/-- MUTEMODE (R216). -/
def execMuteMode (s : State) : Host.Outcome State Fault Refusal :=
  .next (match muteModeOperand s.opArg0 with
    | none => endCommand .outOfRange 0#8 s
    | some m => finishPlain (muteModePlan m s))

end Sys2Proof.Machine
end

