-- ==== Sys2Proof/Machine/Volume.lean ====
section
/-! DEFINITION. The volume curve converter: `VolForward`, `VolInverse` and the commands VOL.FWD and VOL.INV
(spec 40_volume.md). There is no interpolation (R121). -/

namespace Sys2Proof.Machine

/-- `VolForward(i)`, for `i` in 0 to 199 (R123). Over the whole range it is non-increasing exactly for tables whose entry 15
is at least half of entry 0, which R129's words 'under P2' do not ask (DEDUCED, notes/assumptions/15.md). -/
def volForward (c : Cfg) (i : Nat) : Nat :=
  if i = maxAtten then 0 else c.entry (i % 16) >>> (i / 16)

/-- The octave loop of R124 from octave `k`. The condition fails at the latest at octave 30, since entry 0 has 31
bits and the magnitude is not 0, so 31 rounds are never used up. -/
def octaveLoop (top m : Nat) : Nat → Nat → Nat
  | 0, k => k
  | fuel + 1, k => if m <<< (k + 1) ≤ top then octaveLoop top m fuel (k + 1) else k

/-- The table scan of R124 downwards from entry `j`: the largest index up to `j` whose entry is at least `t`, and 0
where there is none. -/
def tableScan (c : Cfg) (t : Nat) : Nat → Nat
  | 0 => 0
  | j + 1 => if t ≤ c.entry (j + 1) then j + 1 else tableScan c t j

/-- `VolInverse(m)`, for a 31-bit `m` (R124). -/
def volInverse (c : Cfg) (m : Nat) : Nat :=
  if m = 0 then maxAtten
  else
    let k := octaveLoop (c.entry 0) m 31 0
    min (16 * k + tableScan c (m <<< k) 15) maxAtten

/-- VOL.FWD (R125). -/
def execVolFwd (s : State) : Host.Outcome State Fault Refusal :=
  .next (if s.opArg0.toNat ≤ maxAtten
    then endCommand .ok 0#8 (s.setRes0 (BitVec.ofNat 32 (volForward s.cfg s.opArg0.toNat)))
    else endCommand .outOfRange 0#8 s)

/-- VOL.INV (R126). -/
def execVolInv (s : State) : Host.Outcome State Fault Refusal :=
  .next (endCommand .ok 0#8 (s.setRes0 (BitVec.ofNat 32 (volInverse s.cfg (magnitudeOperand s.opArg0).toNat))))

end Sys2Proof.Machine
end

