-- ==== Sys2Proof/Machine/Registry.lean ====
section
/-! DEFINITION. The control registry: reading and writing a logical control, CTL.RD and CTL.WR (spec
41_control_registry.md). A multi-register write is not rolled back (R147). -/

namespace Sys2Proof.Machine

/-- `VolWrite(i)` with the magnitude of index `i`: registers 23, 22, 21, 20, one whole byte each (R145). -/
def volWrite (i : Nat) : Plan Unit := fun s =>
  let mag : Word := BitVec.ofNat 32 (volForward s.cfg i)
  planBind (memWrite 23#8 (mag.extractLsb' 24 8)) (fun _ =>
  planBind (memWrite 22#8 (mag.extractLsb' 16 8)) fun _ =>
  planBind (memWrite 21#8 (mag.extractLsb' 8 8)) fun _ => memWrite 20#8 (mag.extractLsb' 0 8)) s

/-- The 31-bit magnitude of four volume bytes; the top bit of the first, register 23's, is ignored (R68, R72). -/
def magnitudeOf (b3 b2 b1 b0 : Byte) : Magnitude := b3.extractLsb' 0 7 ++ b2 ++ b1 ++ b0

/-- `VolRead()`: registers 23, 22, 21, 20 in that order, and the index of their magnitude (R146). -/
def volRead : Plan Nat :=
  planBind (memRead 23#8) fun b3 =>
  planBind (memRead 22#8) fun b2 =>
  planBind (memRead 21#8) fun b1 =>
  planBind (memRead 20#8) fun b0 =>
  fun s => .done (volInverse s.cfg (magnitudeOf b3 b2 b1 b0).toNat) s

/-- The value CTL.RD reads for a control (R148, R151). -/
def readControl (c : Control) : Plan Word :=
  match c with
  | .mute => fun s => .done (bitWord s.ds.forceMute) s
  | .volume => planBind volRead fun i => planPure (BitVec.ofNat 32 i)
  | .outputRemap => planBind (memRead 15#8) fun b => planPure (BitVec.setWidth 32 (b.extractLsb' 0 2))
  | .spdifChannel => planBind (memRead 18#8) fun b => planPure (BitVec.ofNat 32 (lowestSetBit b))
  | _ => planBind (fieldRead (descriptor c).reg (descriptor c).mask (descriptor c).shift) fun b =>
      planPure (BitVec.setWidth 32 b)

/-- The plan CTL.WR runs for a control and a legal value (R153 to R158). -/
def writeControl (c : Control) (v : Word) : Plan Unit :=
  match c with
  | .volume => volWrite v.toNat
  | .mute => if v = 1#32 then muteSetPlan else muteClrPlan
  | _ => fieldWrite (descriptor c).reg (descriptor c).mask (descriptor c).shift (writeCode c v)

/-- CTL.RD (R148). An id that names no control is refused as decode refuses it (R97 (d)). -/
def execCtlRd (ctl : BitVec 8) (s : State) : Host.Outcome State Fault Refusal :=
  .next (match controlOfId ctl with
    | none => endCommand .badCtlId 0#8 s
    | some c => finishRead (readControl c s))

/-- CTL.WR (R153). An id that names no control is refused as decode refuses it (R97 (d)). -/
def execCtlWr (ctl : BitVec 8) (s : State) : Host.Outcome State Fault Refusal :=
  .next (match controlOfId ctl with
    | none => endCommand .badCtlId 0#8 s
    | some c =>
      if legalValue c s.opArg0 then finishPlain (writeControl c s.opArg0 s) else endCommand .outOfRange 0#8 s)

end Sys2Proof.Machine
end

