-- ==== Sys2Proof/Machine/Dispatch.lean ====
section
/-! DEFINITION. One arm per command: the command as it runs once it is accepted (spec 30_encoding.md rule R93). -/

namespace Sys2Proof.Machine

def exec (i : Instr) (s : State) : Host.Outcome State Fault Refusal :=
  match i with
  | .volFwd => Sys2Proof.Machine.execVolFwd s
  | .volInv => Sys2Proof.Machine.execVolInv s
  | .ctlRd ctl => Sys2Proof.Machine.execCtlRd ctl s
  | .ctlWr ctl => Sys2Proof.Machine.execCtlWr ctl s
  | .neg => Sys2Proof.Machine.execNeg s
  | .streamStart => Sys2Proof.Machine.execStreamStart s
  | .streamStop => Sys2Proof.Machine.execStreamStop s
  | .muteSet => Sys2Proof.Machine.execMuteSet s
  | .muteClr => Sys2Proof.Machine.execMuteClr s
  | .fmtSpdif => Sys2Proof.Machine.execFmtSpdif s
  | .muteMode => Sys2Proof.Machine.execMuteMode s

end Sys2Proof.Machine
end

