-- ==== Sys2Proof/Machine/Engine.lean ====
section
/-! DEFINITION. The command engine and the host's moves: which register an access reaches (spec 20_memory.md rules R60,
R61), what a write does (10_state.md rules R23, R24), how a write to `CMD` starts a command (30_encoding.md rules R91,
R97), and attach and detach (70_reset_and_hazards.md rules R270 to R272). -/

namespace Sys2Proof.Machine

/-- The register an access of `size` bytes at `offset` reaches: whole aligned words at 0x00 to 0x3C only (R23, R60,
R61). -/
def windowRegister (offset size : Nat) : Option WinReg :=
  if size ≠ 4 then none
  else match offset with
    | 0x00 => some .cmd
    | 0x04 => some .arg0
    | 0x08 => some .arg1
    | 0x0C => some .status
    | 0x10 => some .res0
    | 0x14 => some .res1
    | 0x18 => some .res2
    | 0x1C => some .res3
    | 0x20 => some .res4
    | 0x24 => some .devstate
    | 0x28 => some .cfgRef44
    | 0x2C => some .cfgRef48
    | 0x30 => some .cfgBclkRatio
    | 0x34 => some .cfgMode
    | 0x38 => some .reserved38
    | 0x3C => some .reserved3C
    | _ => none

/-- The report of a word that is no command (R97, R240). -/
def decodeReport : DecodeError → Report
  | .badOpcode => .badOpcode
  | .reservedBits => .reservedBits
  | .badCtlId => .badCtlId

/-- A write of `w` to `CMD` while IDLE: acceptance, a point at which the host can see the block BUSY, then decode and
the command's rule, or its end as ILLEGAL_CMD (R91, R97, R244). -/
def runCommand (w : Word) (s : State) : Host.Outcome State Fault Refusal :=
  match decode w with
  | .error e => .next (endCommand (decodeReport e) 0#8 (busyPoint (accept w s)))
  | .ok i => exec i (busyPoint (accept w s))

/-- A host write of `v` to a register (R23, R24). -/
def windowWrite (r : WinReg) (v : Word) (s : State) : Host.Outcome State Fault Refusal :=
  match s.fsm with
  | .busy => .next (busyAccess (.write r v) s)
  | .idle =>
    match r with
    | .cmd => runCommand v s
    | .arg0 => .next { s with arg0 := v }
    | .arg1 => .next { s with arg1 := v }
    | .status | .res0 | .res1 | .res2 | .res3 | .res4 | .devstate | .cfgRef44 | .cfgRef48 | .cfgBclkRatio | .cfgMode
    | .reserved38 | .reserved3C => .next s

/-- The block as attach leaves it, with the peripheral, the port, the transactions issued and the host as they
stand: attach issues no transaction (R270, R271). -/
def attachBlock (c : Cfg) (s : State) : State :=
  { State.atAttach c with periph := s.periph, log := s.log, port := s.port, host := s.host }

/-- Detach discards every piece of block state; the peripheral keeps what was written (R272). -/
def detachBlock (s : State) : State := { attachBlock s.cfg s with attached := false }

/-- The host's moves are now `ms`. -/
def State.setMoves (ms : List HostMove) (s : State) : State := { s with host := { s.host with moves := ms } }

/-- The host reads `STATUS` until DONE = 1 (R100): it reads once, and reads again at the next step where the word it read
does not have bit 1, DONE, set (R25). -/
def pollStatus (s : State) : State :=
  let w := windowRead .status s
  let t := s.setRdata w
  if w.getLsbD 1 then t else t.setMoves (.readUntilDone :: t.host.moves)

/-- One move of the host (R290). -/
def hostMove (m : HostMove) (s : State) : Host.Outcome State Fault Refusal :=
  match m with
  | .attach c =>
    if s.attached then .refused .alreadyAttached
    else if c.wellFormed then .next (attachBlock c s) else .refused .volumeTableOutsideSpec
  | .detach => if s.attached then .next (detachBlock s) else .refused .notAttached
  | .read offset size =>
    if s.attached then
      match windowRegister offset size with
      | none => .refused .noWindowRegister
      | some r => .next (s.setRdata (windowRead r s))
    else .refused .notAttached
  | .readUntilDone => if s.attached then .next (pollStatus s) else .refused .notAttached
  | .write offset size v =>
    if s.attached then
      match windowRegister offset size with
      | none => .refused .noWindowRegister
      | some r => windowWrite r v s
    else .refused .notAttached

/-- One step: the host's next move, with the command it starts run to its end, to a transaction the port never
answers, or to the host's detach. With no move left an idle or absent block waits (R273), and a BUSY one is stuck (R289,
U8). -/
def engineStep (s : State) : Host.Outcome State Fault Refusal :=
  match s.host.moves with
  | m :: rest => hostMove m (s.setMoves rest)
  | [] =>
    match s.fsm with
    | .idle => .next s
    | .busy => .fault .portNeverAnswers

/-- The host's next move becomes the write of the command word `w` to `CMD`, of a block that is attached and IDLE. -/
def placeCommand (nbits w : Nat) (s : State) : State :=
  { s with
    attached := true
    fsm := .idle
    host := { s.host with moves := .write 0x00 4 (BitVec.ofNat 32 (w % 2 ^ nbits)) :: s.host.moves } }

end Sys2Proof.Machine
end

