-- ==== Sys2Proof/Machine/Step.lean ====
section
/-! DEFINITION. One step of the machine. The block fetches no instructions (spec 10_state.md rule R22): a step is the
host's next move, and a move that writes `CMD` runs one whole command (20_memory.md rule R78). -/

namespace Sys2Proof.Machine

/-- One step (R22, R75). -/
def step (s : State) : Host.Outcome State Fault Refusal := engineStep s

/-- The state whose next step runs the command word `w`: the host's next move writes it to `CMD` while the block is
attached and IDLE (R22, R90; notes/assumptions/9.md says how a program comes to run). -/
def State.withFetchWord (s : State) (nbits w : Nat) : State := placeCommand nbits w s

end Sys2Proof.Machine
end

