-- ==== Sys2Proof/Safety.lean ====
section
/-! DEFINITION. The terms in which claims speak of a run: the invariant of the state, how a command ended, what a
command leaves alone, and what the port is assumed to do. -/

namespace Sys2Proof.Machine

/-! What the port is assumed to do: the named premises of 93_implementation_defined.md U5 and U6. -/

/-- The next `n` transactions are issued and succeed: no transport failure (U5), and no detach before one of them
(R272). -/
def State.portServes (s : State) (n : Nat) : Prop := ∀ k, k < n → s.outcomeAt k = some .ok

/-- The next `n` transactions are issued and succeed, and their reads return the bytes the registers hold: premise M of
95_test_vectors.md section 0, a memory-like peripheral (U6). -/
def State.portMemoryLike (s : State) (n : Nat) : Prop :=
  ∀ k, k < n → s.outcomeAt k = some .ok ∧ (s.answerAt k).held = true

/-- The byte the `k`-th transaction from now returns, if it is a read of register `a` that is not written before
it. -/
def State.byteRead (s : State) (k : Nat) (a : Byte) : Byte := readByte (s.answerAt k) s.periph a

/-! How a command ended. -/

/-- `t` is the end of a command that ran from `s`: IDLE, DONE, the report and its address, PARTIAL as given, LAST_OP
kept, and `DEVSTATE` the image of DeviceState (R241). -/
def EndedWith (e : Report) (addr : Byte) (part : Bool) (s t : State) : Prop :=
  t.fsm = .idle ∧ t.status.done = true ∧ t.status.report = e ∧ t.status.failAddr = addr ∧ t.status.isPartial = part ∧
    t.status.lastOp = s.status.lastOp ∧ t.devstate = t.ds.image

/-- `t` is the end without error of a command that ran from `s` (R241). -/
def EndedOk (s t : State) : Prop := EndedWith .ok 0#8 false s t

/-! What a command leaves alone. -/

/-- What no command changes: whether a block is attached, the latched command, the operand registers, the
configuration, LAST_OP and the moves the host still makes (R24, R34, R91). -/
def SameInputs (s t : State) : Prop :=
  t.attached = s.attached ∧ t.cmdWord = s.cmdWord ∧ t.opArg0 = s.opArg0 ∧ t.opArg1 = s.opArg1 ∧ t.arg0 = s.arg0 ∧
    t.arg1 = s.arg1 ∧ t.cfg = s.cfg ∧ t.status.lastOp = s.status.lastOp ∧ t.host.moves = s.host.moves

/-- Every result register is as it was. -/
def SameResults (s t : State) : Prop :=
  t.res0 = s.res0 ∧ t.res1 = s.res1 ∧ t.res2 = s.res2 ∧ t.res3 = s.res3 ∧ t.res4 = s.res4

/-- Every result register but `RES0` is as it was. -/
def SameResultsButRes0 (s t : State) : Prop :=
  t.res1 = s.res1 ∧ t.res2 = s.res2 ∧ t.res3 = s.res3 ∧ t.res4 = s.res4

/-- Every register of the peripheral outside `regs` is as it was. -/
def SamePeriphBut (regs : List Byte) (s t : State) : Prop := ∀ a : Byte, a ∉ regs → t.periph.read a = s.periph.read a

/-- No transaction was issued: the log, the peripheral, the port and the plan position are as they were. -/
def NoTransaction (s t : State) : Prop :=
  t.log = s.log ∧ t.periph = s.periph ∧ t.port = s.port ∧ t.planPos = s.planPos

/-- Every result register, DeviceState and the peripheral are as they were, and no transaction was issued. -/
def NoEffect (s t : State) : Prop := SameResults s t ∧ t.ds = s.ds ∧ NoTransaction s t

/-! The peripheral and the log. -/

/-- The hardware mute bit, register 10 bit 0 (R70). -/
def State.muteBit (s : State) : Bool := (s.periph.read 10#8).getLsbD 0

/-- The hardware mute bit reflects effective mute (R32). -/
def State.muteReflected (s : State) : Prop := s.muteBit = s.ds.eff

/-- Whether a transaction is a write that succeeded (R65). -/
def PortEvent.isWriteOk : PortEvent → Bool
  | .writeOk _ _ => true
  | .readOk _ _ | .readFailed _ | .readUnanswered _ | .writeFailed _ _ | .writeUnanswered _ _ => false

/-- Whether a transaction succeeded. -/
def PortEvent.isOk : PortEvent → Bool
  | .readOk _ _ | .writeOk _ _ => true
  | .readFailed _ | .readUnanswered _ | .writeFailed _ _ | .writeUnanswered _ _ => false

/-- Whether a transaction has no answer. -/
def PortEvent.isUnanswered : PortEvent → Bool
  | .readUnanswered _ | .writeUnanswered _ _ => true
  | .readOk _ _ | .writeOk _ _ | .readFailed _ | .writeFailed _ _ => false

/-- Whether a transaction is a write, successful or not, to register `a`. -/
def PortEvent.writesTo (a : Byte) : PortEvent → Bool
  | .writeOk b _ | .writeFailed b _ | .writeUnanswered b _ => decide (b = a)
  | .readOk _ _ | .readFailed _ | .readUnanswered _ => false

/-- The register a transaction names. -/
def PortEvent.reg : PortEvent → Byte
  | .readOk a _ | .readFailed a | .readUnanswered a | .writeOk a _ | .writeFailed a _ | .writeUnanswered a _ => a

/-- What a transaction makes known of register `a`: `known` is what was known before. -/
def PortEvent.settles (a : Byte) (known : Option Byte) : PortEvent → Option Byte
  | .writeOk b v => if a = b then some v else known
  | .writeFailed b _ | .writeUnanswered b _ => if a = b then none else known
  | .readOk _ _ | .readFailed _ | .readUnanswered _ => known

/-- The byte that the last write to register `a` in the log left, if that write succeeded. -/
def lastWritten (log : List PortEvent) (a : Byte) : Option Byte := log.foldl (PortEvent.settles a) none

/-! What a command's plan names. -/

/-- A row of the control table: the columns id, name, kind, reg, mask and shift (R140). -/
structure TableRow where
  id      : BitVec 8
  control : Control
  kind    : ControlKind
  reg     : Byte
  mask    : Byte
  shift   : Nat
  deriving DecidableEq, Repr

/-- The control table of R140, written out row by row with the ids of R94. VOLUME's register is the first of its four, 23
to 20, and its mask the whole register's. -/
def controlTable : List TableRow :=
  [⟨0x00#8, .volume, .continuousAttenuation, 23#8, 0xFF#8, 0⟩,
   ⟨0x01#8, .mute, .booleanMute, 10#8, 0x01#8, 0⟩,
   ⟨0x02#8, .spdifForce, .enumerated, 8#8, 0x80#8, 7⟩,
   ⟨0x03#8, .deemphDisable, .enumerated, 10#8, 0x02#8, 1⟩,
   ⟨0x04#8, .jitterReduction, .enumerated, 10#8, 0x04#8, 2⟩,
   ⟨0x05#8, .daiFormat, .enumerated, 10#8, 0x30#8, 4⟩,
   ⟨0x06#8, .wordWidth, .enumerated, 10#8, 0xC0#8, 6⟩,
   ⟨0x07#8, .deemphRate, .enumerated, 11#8, 0x03#8, 0⟩,
   ⟨0x08#8, .dpllCoarse, .enumerated, 11#8, 0x1C#8, 2⟩,
   ⟨0x09#8, .mclkNotch, .enumerated, 12#8, 0x1F#8, 0⟩,
   ⟨0x0A#8, .firRolloff, .enumerated, 14#8, 0x01#8, 0⟩,
   ⟨0x0B#8, .iirBandwidth, .enumerated, 14#8, 0x06#8, 1⟩,
   ⟨0x0C#8, .differential, .enumerated, 14#8, 0x08#8, 3⟩,
   ⟨0x0D#8, .inputRemap, .enumerated, 14#8, 0xF0#8, 4⟩,
   ⟨0x0E#8, .outputRemap, .enumerated, 15#8, 0xFF#8, 0⟩,
   ⟨0x0F#8, .monoPhase, .enumerated, 17#8, 0x83#8, 0⟩,
   ⟨0x10#8, .spdifAutodetect, .enumerated, 17#8, 0x08#8, 3⟩,
   ⟨0x11#8, .dpllReset, .enumerated, 17#8, 0x20#8, 5⟩,
   ⟨0x12#8, .osfBypass, .enumerated, 17#8, 0x40#8, 6⟩,
   ⟨0x13#8, .spdifChannel, .enumerated, 18#8, 0xFF#8, 0⟩,
   ⟨0x14#8, .dpllAuto, .enumerated, 25#8, 0x03#8, 0⟩]

/-- The "legal values" column of the control table, written out row by row (R140). -/
def tableAllows (c : Control) (n : Nat) : Prop :=
  match c with
  | .volume => n ≤ 199
  | .mute | .spdifForce | .deemphDisable | .jitterReduction | .firRolloff | .differential | .spdifAutodetect
  | .dpllReset | .osfBypass => n = 0 ∨ n = 1
  | .daiFormat => n ≤ 2
  | .wordWidth | .deemphRate | .iirBandwidth | .outputRemap | .dpllAuto => n ≤ 3
  | .dpllCoarse | .spdifChannel => n ≤ 7
  | .inputRemap => n ≤ 15
  | .mclkNotch => n ≤ 31
  | .monoPhase => n ∈ [0x00, 0x01, 0x02, 0x03, 0x80, 0x81, 0x82, 0x83]

/-- The registers CTL.WR of a control can write (R140, R145, R158). -/
def controlRegisters : Control → List Byte
  | .volume => [23#8, 22#8, 21#8, 20#8]
  | c => [(descriptor c).reg]

/-- The registers of the peripheral a command can write (R125, R126, R152, R153, R188, R211 to R216). -/
def commandRegisters : Instr → List Byte
  | .volFwd | .volInv | .ctlRd _ => []
  | .ctlWr ctl => ((controlOfId ctl).map controlRegisters).getD []
  | .neg => [17#8]
  | .streamStart | .streamStop | .muteSet | .muteClr | .muteMode => [10#8]
  | .fmtSpdif => [10#8, 8#8, 17#8]

/-- The registers of the peripheral a command can read or write (R125, R126, R148, R149, R151 to R153, R188, R211 to
R216): CTL.RD reads the registers of its control, none for MUTE. -/
def commandReaches : Instr → List Byte
  | .volFwd | .volInv => []
  | .ctlRd ctl => if ctl = 0x01#8 then [] else ((controlOfId ctl).map controlRegisters).getD []
  | .ctlWr ctl => ((controlOfId ctl).map controlRegisters).getD []
  | .neg => [17#8]
  | .streamStart | .streamStop | .muteSet | .muteClr | .muteMode => [10#8]
  | .fmtSpdif => [10#8, 8#8, 17#8]

/-- The greatest number of transactions a command issues (R160, R289). -/
def commandTransactions : Instr → Nat
  | .volFwd | .volInv => 0
  | .ctlRd ctl => if ctl = 0x00#8 then 4 else if ctl = 0x01#8 then 0 else 1
  | .ctlWr ctl => if ctl = 0x00#8 then 4 else if ctl = 0x0E#8 ∨ ctl = 0x13#8 then 1 else 2
  | .neg => 4
  | .streamStart | .streamStop | .muteSet | .muteClr | .muteMode => 2
  | .fmtSpdif => 8

/-! Attach and detach. -/

/-- Every piece of block state is at its value of attach, but for the configuration and whether a block is attached
(R40; for the latched word and operands, the plan position and `wrote_any`, notes/assumptions/10.md). -/
def BlockAtAttach (t : State) : Prop :=
  t.fsm = .idle ∧ t.cmdWord = 0#32 ∧ t.opArg0 = 0#32 ∧ t.opArg1 = 0#32 ∧ t.planPos = 0 ∧ t.wroteAny = false ∧
    t.arg0 = 0#32 ∧ t.arg1 = 0#32 ∧ t.res0 = 0#32 ∧ t.res1 = 0#32 ∧ t.res2 = 0#32 ∧ t.res3 = 0#32 ∧ t.res4 = 0#32 ∧
    t.status = { done := false, isPartial := false, degraded := false, overrun := false, report := .ok,
                 lastOp := 0#8, failAddr := 0#8 } ∧
    t.devstate = 0x0000000E#32 ∧
    t.ds = { forceMute := false, streamMuted := true, muteMode := .onIdle, lastClass := none }

/-! The invariant. -/

/-- The fields of `STATUS` fit together (R25, R241, R245): while BUSY nothing is reported; PARTIAL only with a TRANSPORT
report after a write that succeeded; DEGRADED only with no error; FAIL_ADDR only with a TRANSPORT report or DEGRADED;
UNSUPPORTED_OP never (R246). -/
def State.statusCoherent (s : State) : Prop :=
  (s.fsm = .busy → s.status.done = false ∧ s.status.isPartial = false ∧ s.status.degraded = false ∧
    s.status.report = .ok ∧ s.status.failAddr = 0#8) ∧
  (s.status.isPartial = true → s.status.report.isTransport = true ∧ s.wroteAny = true) ∧
  (s.status.degraded = true → s.status.report = .ok) ∧
  (s.status.failAddr ≠ 0#8 → s.status.report.isTransport = true ∨ s.status.degraded = true) ∧
  s.status.report ≠ .unsupportedOp

/-- DeviceState fits the configuration (R182, R183, R187): in Slave mode no family was ever recorded, and the family
last recorded has an enabled reference. -/
def State.classCoherent (s : State) : Prop :=
  (s.cfg.mode = .slave → s.ds.lastClass = none) ∧
  (s.ds.lastClass = some .family44k1 → s.cfg.ref44 ≠ 0#32) ∧
  (s.ds.lastClass = some .family48k → s.cfg.ref48 ≠ 0#32)

/-- The invariant every step keeps: the register file is canonical, the volume table is one R122 allows, `STATUS` and
DeviceState are coherent, `DEVSTATE` is the image of DeviceState while IDLE (R26, R76), bits 31:3 of `RES4` are 0 and
its source is never `Internal` (R189, R192), and the register file holds what the log says was last written (R291). -/
def State.Inv (s : State) : Prop :=
  s.periph.wf = true ∧ s.cfg.wellFormed = true ∧ s.statusCoherent ∧ s.classCoherent ∧
  (s.fsm = .idle → s.devstate = s.ds.image) ∧
  (s.res4.toNat < 8 ∧ s.res4.toNat % 4 ≠ 2) ∧
  (∀ a v, lastWritten s.log a = some v → s.periph.read a = v)

end Sys2Proof.Machine
end

