-- ==== Sys2Proof/Certificates/Slice0/Obligations.lean ====
section
/-! DEFINITION. The statements for the provers. Each docstring names the rules of spec/ it formalises; a statement about
a command is about `exec` of it, from any state, for any answers of the port and any accesses of the host. -/

open Sys2Proof Sys2Proof.Machine

/-! Encoding and decoding. -/

/-- R90, R93, R94: every command with a legal control id is read back from its word. -/
def Obligations.DecodeReadsBackTheEncoding : Prop :=
  ∀ i : Instr, i.wellFormed = true → decode (encode i) = .ok i

/-- R90, R97, R99: a word that decodes is the word of the command it decodes to, and that command is well-formed. -/
def Obligations.EncodingGivesBackTheDecodedWord : Prop :=
  ∀ (w : Word) (i : Instr), decode w = .ok i → encode i = w ∧ i.wellFormed = true

/-- R98 with R97's four checks: which word gets which sub-code, and that a word decodes exactly when it passes all. -/
def Obligations.FirstFailingDecodeCheckGivesTheSubCode : Prop :=
  ∀ w : Word,
    let known := opField w ∈ [0x01#8, 0x02#8, 0x10#8, 0x11#8, 0x20#8, 0x30#8, 0x31#8, 0x32#8, 0x33#8, 0x34#8, 0x35#8]
    let ctlCommand := opField w = 0x10#8 ∨ opField w = 0x11#8
    (decode w = .error .badOpcode ↔ ¬ known) ∧
    (decode w = .error .reservedBits ↔
      known ∧ (reservedField w ≠ 0#16 ∨ (reservedField w = 0#16 ∧ ¬ ctlCommand ∧ ctlField w ≠ 0#8))) ∧
    (decode w = .error .badCtlId ↔ ctlCommand ∧ reservedField w = 0#16 ∧ 0x14 < (ctlField w).toNat) ∧
    ((∃ i, decode w = .ok i) ↔
      known ∧ reservedField w = 0#16 ∧ (¬ ctlCommand → ctlField w = 0#8) ∧ (ctlCommand → (ctlField w).toNat ≤ 0x14))

/-- R90, R93, R102: a few words written out from the spec's encoding. -/
def Obligations.WordsOfTheSpecDecode : Prop :=
  decode 0x00000001#32 = .ok .volFwd ∧ decode 0x00000511#32 = .ok (.ctlWr 0x05#8) ∧
  decode 0x00000010#32 = .ok (.ctlRd 0x00#8) ∧ decode 0x00000020#32 = .ok .neg ∧
  decode 0x00000035#32 = .ok .muteMode ∧ decode 0x00001311#32 = .ok (.ctlWr 0x13#8) ∧
  decode 0x00000034#32 = .ok .fmtSpdif ∧ decode 0x00001510#32 = .error .badCtlId

/-! The engine and the host window. -/

/-- When the host's next move writes a word that decodes to `i` to `CMD` of an attached idle block, the step is `exec i` at
the state after acceptance and the point at which the host can see the block BUSY. R91 and R97 say which command is accepted
and run; that one step runs the whole command, and that a BUSY point follows acceptance, is the model's choice (DESIGN
CHOICE, notes/assumptions/9.md). -/
def Obligations.StepRunsTheDecodedCommand : Prop :=
  ∀ (s : State) (w : Word) (rest : List HostMove) (i : Instr), s.attached = true → s.fsm = .idle →
    s.host.moves = .write 0x00 4 w :: rest → decode w = .ok i →
    step s = exec i (busyPoint (accept w (s.setMoves rest)))

/-- R91: what acceptance does, and that it leaves the results (R96), DeviceState, the configuration, the peripheral, the log
and the port as they were; R97, R241: an illegal word ends at once; R24: a write to `CMD` while BUSY is dropped. That the
step which accepts a word also runs its command or ends it, after a BUSY point, is the model's choice (DESIGN CHOICE,
notes/assumptions/9.md). -/
def Obligations.AcceptanceLatchesAndClears : Prop :=
  ∀ (s : State) (w : Word) (rest : List HostMove), s.attached = true → s.host.moves = .write 0x00 4 w :: rest →
    (s.fsm = .idle →
      (let u := accept w (s.setMoves rest)
       u.cmdWord = w ∧ u.opArg0 = s.arg0 ∧ u.opArg1 = s.arg1 ∧
       u.status = { done := false, isPartial := false, degraded := false, overrun := false, report := .ok,
                    lastOp := w.extractLsb' 0 8, failAddr := 0#8 } ∧
       u.wroteAny = false ∧ u.fsm = .busy ∧ u.planPos = 0 ∧
       (SameResults s u ∧ u.ds = s.ds ∧ u.devstate = s.devstate ∧ u.attached = s.attached ∧ u.arg0 = s.arg0 ∧
         u.arg1 = s.arg1 ∧ u.cfg = s.cfg ∧ u.periph = s.periph ∧ u.log = s.log ∧ u.port = s.port ∧
         u.host = { s.host with moves := rest }) ∧
       (∀ i, decode w = .ok i → step s = exec i (busyPoint u)) ∧
       (∀ e, decode w = .error e → step s = .next (endCommand (decodeReport e) 0#8 (busyPoint u))))) ∧
    (s.fsm = .busy → step s = .next (s.setMoves rest).setOverrun)

/-- R97, R240, R244: an illegal word ends at once with its sub-code, with no transaction, no change to DeviceState and no
change to a result register; LAST_OP holds the word's opcode bits. -/
def Obligations.IllegalWordEndsAtOnce : Prop :=
  ∀ (s : State) (w : Word) (rest : List HostMove) (e : DecodeError), s.attached = true → s.fsm = .idle →
    s.host.moves = .write 0x00 4 w :: rest → decode w = .error e →
    ∃ t, step s = .next t ∧ t.fsm = .idle ∧ t.status.done = true ∧ t.status.report = decodeReport e ∧
      t.status.report.err = 4 ∧
      t.status.report.sub = (match e with | .badOpcode => 1#4 | .badCtlId => 2#4 | .reservedBits => 3#4) ∧
      t.status.isPartial = false ∧ t.status.failAddr = 0#8 ∧
      t.status.lastOp = opField w ∧ SameResults s t ∧ t.ds = s.ds ∧ t.log = s.log ∧ t.periph = s.periph ∧
      t.port = s.port

/-- R25, R26, R31: the bits of the words the host reads at `STATUS` and, while IDLE under the invariant, at `DEVSTATE`
(current only then: notes/assumptions/7.md), and what effective mute is; R240: the codes of every report, written out. -/
def Obligations.StatusAndDevstateBits : Prop :=
  ∀ s : State,
    (let w := windowRead .status s
     w.getLsbD 0 = decide (s.fsm = .busy) ∧ w.getLsbD 1 = s.status.done ∧ w.getLsbD 2 = s.status.isPartial ∧
     w.getLsbD 3 = s.status.degraded ∧ w.getLsbD 4 = s.status.overrun ∧ w.extractLsb' 5 3 = 0#3 ∧
     w.extractLsb' 8 4 = s.status.report.err ∧ w.extractLsb' 12 4 = s.status.report.sub ∧
     w.extractLsb' 16 8 = s.status.lastOp ∧ w.extractLsb' 24 8 = s.status.failAddr) ∧
    (s.Inv → s.fsm = .idle →
     let d := windowRead .devstate s
     d.getLsbD 0 = s.ds.forceMute ∧ d.getLsbD 1 = s.ds.streamMuted ∧ d.getLsbD 2 = decide (s.ds.muteMode = .onIdle) ∧
     d.getLsbD 3 = s.ds.eff ∧
     d.extractLsb' 4 2 = (match s.ds.lastClass with
       | none => 0#2 | some .family44k1 => 1#2 | some .family48k => 2#2) ∧
     d.extractLsb' 6 26 = 0#26) ∧
    (s.ds.eff = true ↔ s.ds.forceMute = true ∨ (s.ds.muteMode = .onIdle ∧ s.ds.streamMuted = true)) ∧
    (let codes : List (Report × Nat × Nat) := [(.ok, 0, 0), (.outOfRange, 1, 1), (.unsupportedRate, 1, 2),
       (.divideByZero, 1, 3), (.divisorZero, 1, 4), (.badFormat, 1, 5), (.transportRead, 2, 1), (.transportWrite, 2, 2),
       (.unsupportedOp, 3, 0), (.badOpcode, 4, 1), (.badCtlId, 4, 2), (.reservedBits, 4, 3)]
     (∀ e : Report, ∃ c ∈ codes, c.1 = e) ∧
     ∀ c ∈ codes, s.status.report = c.1 → ((windowRead .status s).extractLsb' 8 4).toNat = c.2.1 ∧
       ((windowRead .status s).extractLsb' 12 4).toNat = c.2.2)

/-- R23, R60, R61, R260 (b): an access of an attached block is refused for want of a register exactly when it is not a
whole aligned word below offset 0x40; a read of each of the sixteen offsets returns the word of R23's table, written out,
and changes nothing but what the host received. The words of `STATUS` and `DEVSTATE` are StatusAndDevstateBits'. R100 has the
host read `STATUS` until DONE = 1; that it is a move of one read a step, which stays the host's next move until the word it
read has DONE set, is the model's choice (DESIGN CHOICE, notes/assumptions/9.md). -/
def Obligations.OnlyAlignedWordsReachTheWindow : Prop :=
  ∀ (s : State) (offset size : Nat) (v : Word) (rest : List HostMove), s.attached = true →
    let whole := size = 4 ∧ offset % 4 = 0 ∧ offset < 0x40
    let words : List (Nat × Word) := [(0x00, 0#32), (0x04, s.arg0), (0x08, s.arg1), (0x0C, windowRead .status s),
      (0x10, s.res0), (0x14, s.res1), (0x18, s.res2), (0x1C, s.res3), (0x20, s.res4), (0x24, windowRead .devstate s),
      (0x28, s.cfg.ref44), (0x2C, s.cfg.ref48), (0x30, s.cfg.bclkRatio),
      (0x34, if s.cfg.mode = .slave then 1#32 else 0#32), (0x38, 0#32), (0x3C, 0#32)]
    (s.host.moves = .read offset size :: rest →
      (¬ whole → step s = .refused .noWindowRegister) ∧
      (whole → ∃ p ∈ words, p.1 = offset) ∧
      (∀ p ∈ words, p.1 = offset → size = 4 → step s = .next ((s.setMoves rest).setRdata p.2))) ∧
    (s.host.moves = .readUntilDone :: rest →
      step s = .next ((if s.status.done then s.setMoves rest else s).setRdata (windowRead .status s))) ∧
    (s.host.moves = .write offset size v :: rest →
      (¬ whole → step s = .refused .noWindowRegister) ∧ (whole → step s ≠ .refused .noWindowRegister))

/-- R24, R282: a write to `ARG0` or `ARG1` of an idle block is kept; no other step but attach and detach changes them, so
no command does; and a write to `CMD`, `ARG0` or `ARG1` while BUSY changes nothing but OVERRUN, whether a step makes it or
a running command's BUSY point, which changes nothing but OVERRUN, the host's read data and the accesses it still makes. R23,
R62: the host's last read there returns the register's word, with OVERRUN as the accesses before it left it.
Where a running command has its BUSY points is the model's choice (DESIGN CHOICE, notes/assumptions/9.md). -/
def Obligations.OperandRegistersAndBusyWrites : Prop :=
  (∀ (s : State) (v : Word) (rest : List HostMove), s.attached = true → s.fsm = .idle →
    (s.host.moves = .write 0x04 4 v :: rest → step s = .next { s.setMoves rest with arg0 := v }) ∧
    (s.host.moves = .write 0x08 4 v :: rest → step s = .next { s.setMoves rest with arg1 := v })) ∧
  (∀ s t : State, step s = .next t → (∀ c rest, s.host.moves ≠ .attach c :: rest) →
    (∀ rest, s.host.moves ≠ .detach :: rest) →
    ((∀ v rest, s.host.moves ≠ .write 0x04 4 v :: rest) → t.arg0 = s.arg0) ∧
    ((∀ v rest, s.host.moves ≠ .write 0x08 4 v :: rest) → t.arg1 = s.arg1)) ∧
  (∀ (s : State) (offset : Nat) (v : Word) (rest : List HostMove), s.attached = true → s.fsm = .busy →
    offset ∈ [0x00, 0x04, 0x08] → s.host.moves = .write offset 4 v :: rest →
    step s = .next (s.setMoves rest).setOverrun) ∧
  (∀ (s : State) (as : List WinAccess) (rest : List (List WinAccess)), s.host.meanwhile = as :: rest →
    let after : List WinAccess → Status := fun l =>
      { s.status with overrun := s.status.overrun || l.any fun a => match a with
          | .write r _ => decide (r ∈ [WinReg.cmd, WinReg.arg0, WinReg.arg1])
          | .read _ => false }
    ∃ rd : Word, busyPoint s = { s with status := after as, host := { s.host with meanwhile := rest, rdata := rd } } ∧
      ((∀ r, WinAccess.read r ∉ as) → rd = s.host.rdata) ∧
      (∀ pre r post, as = pre ++ .read r :: post → (∀ q, WinAccess.read q ∉ post) →
        rd = windowRead r { s with status := after pre })) ∧
  (∀ s : State, s.host.meanwhile = [] → busyPoint s = s)

/-- R23: a write to a read-only or reserved register of an attached block has no effect. -/
def Obligations.ReadOnlyRegistersIgnoreWrites : Prop :=
  ∀ (s : State) (offset : Nat) (v : Word) (rest : List HostMove), s.attached = true → offset % 4 = 0 →
    0x0C ≤ offset → offset < 0x40 → s.host.moves = .write offset 4 v :: rest → step s = .next (s.setMoves rest)

/-! The volume curve converter. -/

/-- R123: the forward mapping, with no table entry but the one named read, and its range. -/
def Obligations.VolForwardIsAShiftedEntry : Prop :=
  ∀ (c : Cfg) (i : Nat), (i = 199 → volForward c i = 0) ∧
    (i < 199 → volForward c i = c.entry (i % 16) / 2 ^ (i / 16)) ∧ (i ≤ 199 → volForward c i < 2 ^ 31)

/-- R124: the inverse: 199 for 0, and otherwise the octave and the entry the rule's loop and scan end with; under P0 the
scanned entry is at least the shifted magnitude. -/
def Obligations.VolInverseIsTheOctaveAndEntry : Prop :=
  ∀ c : Cfg, volInverse c 0 = 199 ∧
    ∀ m : Nat, 0 < m → m < 2 ^ 31 → ∃ k j : Nat,
      k ≤ 30 ∧ c.entry 0 < m * 2 ^ (k + 1) ∧ (∀ k', 0 < k' → k' ≤ k → m * 2 ^ k' ≤ c.entry 0) ∧
      j ≤ 15 ∧ (j ≠ 0 → m * 2 ^ k ≤ c.entry j) ∧ (∀ j', j < j' → j' ≤ 15 → c.entry j' < m * 2 ^ k) ∧
      (c.entry 0 = 0x7FFFFFFF → m * 2 ^ k ≤ c.entry j) ∧
      volInverse c m = min (16 * k + j) 199

/-- R127, which marks the exactness as its own derivation from R122 to R124 (the source asks for plus or minus 1, and R128
restricts claims about the original to that): under P0 to P3 the inverse of the forward mapping is exact on all 200
indices; the example table satisfies P0 to P3. -/
def Obligations.VolumeRoundTripIsExact : Prop :=
  (∀ c : Cfg, c.wellFormed = true → c.exactTable = true →
    ∀ i : Nat, i ≤ 199 → volInverse c (volForward c i) = i) ∧
  (∀ c : Cfg, c.volRef = Config.volRefEx → c.wellFormed = true ∧ c.exactTable = true)

/-- From R123, R124 and R129: under P2 the inverse is non-increasing, and the forward mapping is so within each octave; over
all of 0 to 199 the forward mapping is so exactly when entry 15 is at least half of entry 0, which P0 to P3 give; under P0 to
P3 it is injective; its magnitudes have bit 31 clear. R129 says 'under P2' of the forward mapping over 0 to 199 too, which
R123 does not give for every table with P2, as the last clause shows (DEDUCED, notes/assumptions/15.md). -/
def Obligations.VolumeMappingsAreMonotone : Prop :=
  (∀ c : Cfg, c.wellFormed = true →
    (∀ m n : Nat, m ≤ n → n < 2 ^ 31 → volInverse c n ≤ volInverse c m) ∧
    (∀ i j : Nat, i ≤ j → j ≤ 199 → i / 16 = j / 16 → volForward c j ≤ volForward c i) ∧
    ((∀ i j : Nat, i ≤ j → j ≤ 199 → volForward c j ≤ volForward c i) ↔ c.entry 0 / 2 ≤ c.entry 15) ∧
    (c.exactTable = true →
      (∀ i j : Nat, i ≤ j → j ≤ 199 → volForward c j ≤ volForward c i) ∧
      (∀ i j : Nat, i ≤ 199 → j ≤ 199 → volForward c i = volForward c j → i = j)) ∧
    (∀ i : Nat, i ≤ 199 → (BitVec.ofNat 32 (volForward c i)).getLsbD 31 = false)) ∧
  (∃ c : Cfg, c.wellFormed = true ∧ volForward c 15 < volForward c 16)

/-- R125: VOL.FWD, from every state: its result for an index up to 199, OUT_OF_RANGE for every other 32-bit operand, no
transaction and no change to DeviceState in either case. -/
def Obligations.VolFwdGivesTheMagnitude : Prop :=
  ∀ s : State, ∃ t, exec .volFwd s = .next t ∧ t.ds = s.ds ∧ NoTransaction s t ∧ SameInputs s t ∧
    SameResultsButRes0 s t ∧ t.status.overrun = s.status.overrun ∧ t.status.degraded = s.status.degraded ∧
    (s.opArg0.toNat ≤ 199 →
      EndedOk s t ∧ t.res0.toNat = volForward s.cfg s.opArg0.toNat ∧ t.res0.getLsbD 31 = false) ∧
    (199 < s.opArg0.toNat → EndedWith .outOfRange 0#8 false s t ∧ t.res0 = s.res0)

/-- R126: VOL.INV, from every state: the index of bits 30:0 of the operand, at most 199, with no error, no transaction
and no change to DeviceState. -/
def Obligations.VolInvGivesTheIndex : Prop :=
  ∀ s : State, ∃ t, exec .volInv s = .next t ∧ t.ds = s.ds ∧ NoTransaction s t ∧ SameInputs s t ∧
    SameResultsButRes0 s t ∧ t.status.overrun = s.status.overrun ∧ t.status.degraded = s.status.degraded ∧
    EndedOk s t ∧ t.res0.toNat = volInverse s.cfg (s.opArg0.toNat % 2 ^ 31) ∧ t.res0.toNat ≤ 199

/-! The control registry. -/

/-- R94, R140, R143: the ids, kinds, registers, masks and shifts of the model are those of the control table written out
(`controlTable`), which names every control and gives an id to it and to no other; the range check accepts exactly the
values of the table's column, on the full 32 bits. -/
def Obligations.LegalValuesAreTheTables : Prop :=
  (∀ (c : Control) (v : Word), legalValue c v = true ↔ tableAllows c v.toNat) ∧
  controlTable.length = 21 ∧ (∀ c : Control, ∃ r ∈ controlTable, r.control = c) ∧
  (∀ r ∈ controlTable, controlOfId r.id = some r.control ∧ descriptor r.control = ⟨r.kind, r.reg, r.mask, r.shift⟩) ∧
  (∀ ctl : BitVec 8, controlOfId ctl = none ↔ 0x14 < ctl.toNat)

/-- R140, R142, R148, R144: CTL.RD of a control with one register, when the port serves the read: one read of the
register of its row of the table, the value the row gives (the low two bits for OUTPUT_REMAP; for SPDIF_CHANNEL the lowest
bit that is set, 0 if none is; else the field), and nothing else changed. -/
def Obligations.CtlRdReadsOneRegister : Prop :=
  ∀ (s : State) (r : TableRow), r ∈ controlTable → r.control ≠ .volume → r.control ≠ .mute → s.portServes 1 →
    let b := s.byteRead 0 r.reg
    ∃ t, exec (.ctlRd r.id) s = .next t ∧ EndedOk s t ∧ t.status.degraded = s.status.degraded ∧
      t.log = s.log ++ [.readOk r.reg b] ∧ t.periph = s.periph ∧ t.ds = s.ds ∧ SameInputs s t ∧
      SameResultsButRes0 s t ∧
      (r.control = .outputRemap → t.res0.toNat = b.toNat % 4) ∧
      (r.control = .spdifChannel → (b = 0#8 → t.res0 = 0#32) ∧
        (b ≠ 0#8 → b.getLsbD t.res0.toNat = true ∧ ∀ j, j < t.res0.toNat → b.getLsbD j = false)) ∧
      (r.control ≠ .outputRemap → r.control ≠ .spdifChannel → t.res0.toNat = ((b &&& r.mask) >>> r.shift).toNat)

/-- R146, R149: CTL.RD VOLUME when the port serves four reads: registers 23, 22, 21, 20 in that order, and the index of the
31-bit magnitude they hold. -/
def Obligations.CtlRdVolumeReadsFourRegisters : Prop :=
  ∀ s : State, s.portServes 4 →
    let b3 := s.byteRead 0 23#8
    let b2 := s.byteRead 1 22#8
    let b1 := s.byteRead 2 21#8
    let b0 := s.byteRead 3 20#8
    ∃ t, exec (.ctlRd 0x00#8) s = .next t ∧ EndedOk s t ∧ t.status.degraded = s.status.degraded ∧
      t.log = s.log ++ [.readOk 23#8 b3, .readOk 22#8 b2, .readOk 21#8 b1, .readOk 20#8 b0] ∧
      t.periph = s.periph ∧ t.ds = s.ds ∧ SameInputs s t ∧ SameResultsButRes0 s t ∧
      t.res0.toNat =
        volInverse s.cfg (b3.toNat % 128 * 2 ^ 24 + b2.toNat * 2 ^ 16 + b1.toNat * 2 ^ 8 + b0.toNat)

/-- R151: CTL.RD MUTE returns the user's setting with no transaction, whatever the port would answer. -/
def Obligations.CtlRdMuteReadsForceMute : Prop :=
  ∀ s : State, ∃ t, exec (.ctlRd 0x01#8) s = .next t ∧ EndedOk s t ∧ NoTransaction s t ∧ t.ds = s.ds ∧ SameInputs s t ∧
    SameResultsButRes0 s t ∧ t.res0 = (if s.ds.forceMute then 1#32 else 0#32)

/-- R150: a failed read of any control degrades to the value 0 with DEGRADED and FAIL_ADDR set and no error; no further
transaction is issued. For VOLUME the `k`-th of its four reads fails. -/
def Obligations.FailedReadDegradesToZero : Prop :=
  (∀ (s : State) (r : TableRow), r ∈ controlTable → r.control ≠ .volume → r.control ≠ .mute →
    s.outcomeAt 0 = some .failed →
    ∃ t, exec (.ctlRd r.id) s = .next t ∧ EndedWith .ok r.reg false s t ∧ t.status.degraded = true ∧
      t.res0 = 0#32 ∧ SameResultsButRes0 s t ∧ t.log = s.log ++ [.readFailed r.reg] ∧ t.ds = s.ds ∧
      t.periph = s.periph) ∧
  (∀ (s : State) (k : Nat), k < 4 → s.portServes k → s.outcomeAt k = some .failed →
    ∃ t, exec (.ctlRd 0x00#8) s = .next t ∧ EndedWith .ok (BitVec.ofNat 8 (23 - k)) false s t ∧
      t.status.degraded = true ∧ t.res0 = 0#32 ∧ SameResultsButRes0 s t ∧
      (∃ pre, t.log = s.log ++ pre ++ [.readFailed (BitVec.ofNat 8 (23 - k))] ∧ pre.length = k) ∧ t.ds = s.ds ∧
      t.periph = s.periph)

/-- R243: CTL.RD that ends, ends with no error where its id is legal. R97 and R243 refuse an illegal id when its word is
decoded, so no step runs such a command; that `exec` of one ends as BAD_CTL_ID is the model's choice (DESIGN CHOICE,
notes/assumptions/17.md). -/
def Obligations.CtlRdNeverReportsATransportError : Prop :=
  ∀ (s t : State) (ctl : BitVec 8), s.fsm = .busy → exec (.ctlRd ctl) s = .next t → t.fsm = .idle →
    t.status.report = (if ctl.toNat ≤ 0x14 then Report.ok else Report.badCtlId)

/-- R140, R141, R155: CTL.WR of a field control (every row of the table but VOLUME, MUTE, OUTPUT_REMAP and SPDIF_CHANNEL)
with a legal value: one read and one write of the row's register, the row's field becoming the value and every other bit
staying as read; if the read fails, TRANSPORT/READ with nothing written. -/
def Obligations.CtlWrFieldKeepsTheOtherBits : Prop :=
  ∀ (s : State) (r : TableRow), r ∈ controlTable →
    r.control ∉ [Control.volume, .mute, .outputRemap, .spdifChannel] → tableAllows r.control s.opArg0.toNat →
    let b := s.byteRead 0 r.reg
    (s.portServes 2 → ∃ (t : State) (x : Byte), exec (.ctlWr r.id) s = .next t ∧ EndedOk s t ∧
      t.log = s.log ++ [.readOk r.reg b, .writeOk r.reg x] ∧
      ((x &&& r.mask) >>> r.shift).toNat = s.opArg0.toNat ∧ x &&& ~~~r.mask = b &&& ~~~r.mask ∧
      t.periph.read r.reg = x ∧ SamePeriphBut [r.reg] s t ∧ t.ds = s.ds ∧ SameInputs s t ∧ SameResults s t) ∧
    (s.outcomeAt 0 = some .failed → ∃ t, exec (.ctlWr r.id) s = .next t ∧
      t.fsm = .idle ∧ t.status.report = .transportRead ∧ t.status.failAddr = r.reg ∧
      t.log = s.log ++ [.readFailed r.reg] ∧ t.periph = s.periph ∧ t.ds = s.ds ∧ SameResults s t)

/-- R145, R154: CTL.WR VOLUME of a legal index: four writes, 23 to 20, of the magnitude's bytes and no read; if the `k`-th
fails, the ones before it stay applied and PARTIAL is set exactly if there were any. -/
def Obligations.CtlWrVolumeWritesFourRegisters : Prop :=
  ∀ s : State, s.opArg0.toNat ≤ 199 →
    let mag : Word := BitVec.ofNat 32 (volForward s.cfg s.opArg0.toNat)
    let plan : List (Byte × Byte) := [(23#8, mag.extractLsb' 24 8), (22#8, mag.extractLsb' 16 8),
      (21#8, mag.extractLsb' 8 8), (20#8, mag.extractLsb' 0 8)]
    mag.getLsbD 31 = false ∧
    (s.portServes 4 → ∃ t, exec (.ctlWr 0x00#8) s = .next t ∧ EndedOk s t ∧
      t.log = s.log ++ plan.map (fun p => .writeOk p.1 p.2) ∧ (∀ p ∈ plan, t.periph.read p.1 = p.2) ∧
      SamePeriphBut [23#8, 22#8, 21#8, 20#8] s t ∧ t.ds = s.ds ∧ SameInputs s t ∧ SameResults s t) ∧
    (s.wroteAny = false → ∀ k, k < 4 → s.portServes k → s.outcomeAt k = some .failed →
      ∃ t, exec (.ctlWr 0x00#8) s = .next t ∧
        EndedWith .transportWrite (BitVec.ofNat 8 (23 - k)) (decide (0 < k)) s t ∧
        (∀ p ∈ plan.take k, t.periph.read p.1 = p.2) ∧
        SamePeriphBut ((plan.take (k + 1)).map Prod.fst) s t ∧ t.log.length = s.log.length + k + 1 ∧
        t.ds = s.ds ∧ SameResults s t)

/-- R144, R156: CTL.WR OUTPUT_REMAP and CTL.WR SPDIF_CHANNEL with a legal value: one write of the whole register and no
read. -/
def Obligations.CtlWrWholeRegisterWritesOnce : Prop :=
  ∀ s : State, s.portServes 1 →
    (s.opArg0.toNat ≤ 3 → ∃ (t : State) (x : Byte), exec (.ctlWr 0x0E#8) s = .next t ∧ x.toNat = 0x55 * s.opArg0.toNat ∧
      EndedOk s t ∧ t.log = s.log ++ [.writeOk 15#8 x] ∧ t.periph.read 15#8 = x ∧ SamePeriphBut [15#8] s t ∧
      t.ds = s.ds ∧ SameInputs s t ∧ SameResults s t) ∧
    (s.opArg0.toNat ≤ 7 → ∃ (t : State) (x : Byte), exec (.ctlWr 0x13#8) s = .next t ∧ x.toNat = 2 ^ s.opArg0.toNat ∧
      EndedOk s t ∧ t.log = s.log ++ [.writeOk 18#8 x] ∧ t.periph.read 18#8 = x ∧ SamePeriphBut [18#8] s t ∧
      t.ds = s.ds ∧ SameInputs s t ∧ SameResults s t)

/-- R158: CTL.WR MUTE runs exactly the plan of MUTE.SET for 1 and of MUTE.CLR for 0. -/
def Obligations.CtlWrMuteRunsTheMutePlans : Prop :=
  ∀ s : State, (s.opArg0 = 1#32 → exec (.ctlWr 0x01#8) s = exec .muteSet s) ∧
    (s.opArg0 = 0#32 → exec (.ctlWr 0x01#8) s = exec .muteClr s)

/-- R143: CTL.WR of a value outside the control's column of legal values is OUT_OF_RANGE before any transaction; CTL.WR of
a value inside it never is; the check is on all 32 bits, so 0x100 is illegal for every control. -/
def Obligations.CtlWrRefusesIllegalValues : Prop :=
  (∀ (s : State) (ctl : BitVec 8) (c : Control), controlOfId ctl = some c →
    (¬ tableAllows c s.opArg0.toNat →
      ∃ t, exec (.ctlWr ctl) s = .next t ∧ EndedWith .outOfRange 0#8 false s t ∧ NoEffect s t ∧ SameInputs s t) ∧
    (tableAllows c s.opArg0.toNat → s.fsm = .busy →
      ∀ t, exec (.ctlWr ctl) s = .next t → t.fsm = .idle → t.status.report ≠ .outOfRange)) ∧
  (∀ c : Control, ¬ tableAllows c 0x100)

/-- R141, R142, R144 to R146 under premise M (a memory-like peripheral) and, for VOLUME, P0 to P3: a legal value written to
a control by CTL.WR is the value CTL.RD reads back, for every control but MUTE. -/
def Obligations.WrittenControlReadsBack : Prop :=
  ∀ (s : State) (ctl : BitVec 8) (c : Control), controlOfId ctl = some c → c ≠ .mute →
    legalValue c s.opArg0 = true → (c = .volume → s.cfg.wellFormed = true ∧ s.cfg.exactTable = true) →
    s.portMemoryLike 8 →
    ∃ t u, exec (.ctlWr ctl) s = .next t ∧ exec (.ctlRd ctl) t = .next u ∧ EndedOk t u ∧ u.res0 = s.opArg0

/-! The clock negotiator. -/

/-- R182, R183: which family and system clock a rate selects, and that a rate that selects none is UNSUPPORTED_RATE. -/
def Obligations.FamilySelection : Prop :=
  ∀ (c : Cfg) (rate : Nat),
    (c.mode = .slave → selectClock c rate = some (.slaveUndefined, 0, none)) ∧
    (c.mode = .master →
      (rate = 0 → selectClock c rate = none) ∧
      (0 < rate → c.ref44.toNat ≠ 0 → rate ∣ c.ref44.toNat →
        selectClock c rate = some (.external44k1, c.ref44.toNat, some .family44k1)) ∧
      (0 < rate → ¬ (c.ref44.toNat ≠ 0 ∧ rate ∣ c.ref44.toNat) → c.ref48.toNat ≠ 0 → rate ∣ c.ref48.toNat →
        selectClock c rate = some (.external48k, c.ref48.toNat, some .family48k)) ∧
      (¬ (c.ref44.toNat ≠ 0 ∧ rate ∣ c.ref44.toNat) → ¬ (c.ref48.toNat ≠ 0 ∧ rate ∣ c.ref48.toNat) →
        selectClock c rate = none)) ∧
    (∀ (r format : Word), formatOperand format ≠ none → selectClock c r.toNat = none →
      planClock c r format = .error .unsupportedRate)

/-- R185: the divisor is the quotient rounded to the nearest integer, halves up, at most the system clock; a bit clock of
0 is DIVIDE_BY_ZERO. -/
def Obligations.DivisorRoundsHalvesUp : Prop :=
  (∀ sysclk bclk : Nat, 0 < bclk →
    clockDivisor sysclk bclk = sysclk / bclk + (if bclk ≤ 2 * (sysclk % bclk) then 1 else 0) ∧
    clockDivisor sysclk bclk ≤ sysclk) ∧
  (∀ (c : Cfg) (rate format : Word) (f : SampleFormat), formatOperand format = some f →
    selectClock c rate.toNat ≠ none → bitClock c rate f = 0 → planClock c rate format = .error .divideByZero)

/-- R186: a divisor of 0 is rejected exactly when the system clock is not 0, which is when the bit clock is more than twice
the system clock; in Slave mode it is accepted. R182, R184, R185, R189, R190: in either mode, when every check passes the
plan has the selected system clock, source and family, the bit clock of R184 and the divisor of R185. -/
def Obligations.ZeroDivisorIsRejectedInMasterMode : Prop :=
  (∀ sysclk bclk : Nat, 0 < bclk → (clockDivisor sysclk bclk = 0 ↔ 2 * sysclk < bclk)) ∧
  (∀ (c : Cfg) (rate format : Word) (f : SampleFormat) (src : ClockSource) (sysclk : Nat) (fam : Option Family),
    formatOperand format = some f → selectClock c rate.toNat = some (src, sysclk, fam) → bitClock c rate f ≠ 0 →
    (planClock c rate format = .error .divisorZero ↔ sysclk ≠ 0 ∧ 2 * sysclk < bitClock c rate f)) ∧
  (∀ (c : Cfg) (rate format : Word) (f : SampleFormat), c.mode = .slave → formatOperand format = some f →
    bitClock c rate f ≠ 0 →
    planClock c rate format = .ok ⟨0, .slaveUndefined, none, bitClock c rate f, 0⟩) ∧
  (∀ (c : Cfg) (rate format : Word) (f : SampleFormat) (src : ClockSource) (sysclk : Nat) (fam : Option Family),
    formatOperand format = some f → selectClock c rate.toNat = some (src, sysclk, fam) → bitClock c rate f ≠ 0 →
    (sysclk = 0 ∨ bitClock c rate f ≤ 2 * sysclk) →
    planClock c rate format = .ok
      { sysclk := sysclk, source := src, family := fam, bclk := bitClock c rate f,
        divisor := clockDivisor sysclk (bitClock c rate f) })

/-- R181, R184: the format code, its BAD_FORMAT error, and the bit clock, exact and below 2^64. -/
def Obligations.BitClockIsExact : Prop :=
  ∀ (c : Cfg) (rate format : Word),
    (formatOperand format = none ↔ 3 < format.toNat % 256 ∨ 2 ^ 16 ≤ format.toNat) ∧
    (formatOperand format = none → planClock c rate format = .error .badFormat) ∧
    (format.toNat % 256 = 1 → format.toNat < 2 ^ 16 → formatOperand format = some (.dsd 8)) ∧
    (format.toNat % 256 = 2 → format.toNat < 2 ^ 16 → formatOperand format = some (.dsd 16)) ∧
    (format.toNat % 256 = 3 → format.toNat < 2 ^ 16 → formatOperand format = some (.dsd 32)) ∧
    (format.toNat % 256 = 0 → format.toNat < 2 ^ 16 →
      formatOperand format = some (.pcm (BitVec.ofNat 8 (format.toNat / 256)))) ∧
    (∀ n, bitClock c rate (.dsd n) = n * rate.toNat) ∧
    (∀ w, c.bclkRatio ≠ 0#32 → bitClock c rate (.pcm w) = c.bclkRatio.toNat * rate.toNat) ∧
    (∀ w, c.bclkRatio = 0#32 → bitClock c rate (.pcm w) = (Config.pcmDefaultBclk w rate).toNat) ∧
    (∀ f, formatOperand format = some f → bitClock c rate f < 2 ^ 64)

/-- R190, R247: a negotiation whose computation fails ends with that error before any transaction and with no change of
state, and the errors are the four of R240 that NEG raises. -/
def Obligations.NegErrorsComeBeforeAnyTransaction : Prop :=
  ∀ (s : State) (e : Report), planClock s.cfg s.opArg0 s.opArg1 = .error e →
    e ∈ [Report.badFormat, .unsupportedRate, .divideByZero, .divisorZero] ∧
    ∃ t, exec .neg s = .next t ∧ EndedWith e 0#8 false s t ∧ NoEffect s t ∧ SameInputs s t

/-- R187, R189, R193: a negotiation that needs no relock ends without error and without a transaction, with the plan in
`RES0` to `RES4`. -/
def Obligations.NegWithoutRelockReportsThePlan : Prop :=
  ∀ (s : State) (p : ClockPlan), planClock s.cfg s.opArg0 s.opArg1 = .ok p →
    (p.family = none ∨ p.family = s.ds.lastClass) →
    ∃ t, exec .neg s = .next t ∧ EndedOk s t ∧ t.ds = s.ds ∧ NoTransaction s t ∧ SameInputs s t ∧
      t.res0.toNat = p.sysclk ∧ t.res1.toNat + 2 ^ 32 * t.res2.toNat = p.bclk ∧ t.res3.toNat = p.divisor ∧
      t.res4.toNat = (match p.source with
        | .external44k1 => 0 | .external48k => 1 | .internal => 2 | .slaveUndefined => 3) ∧
      t.status.degraded = s.status.degraded

/-- R187, R188, R189: a negotiation whose family differs from the last pulses DPLL_RESET, assert then deassert, changing
no other bit of register 17, and then records the family. -/
def Obligations.NegRelockPulsesAndRecordsTheFamily : Prop :=
  ∀ (s : State) (p : ClockPlan) (f : Family), planClock s.cfg s.opArg0 s.opArg1 = .ok p → p.family = some f →
    s.ds.lastClass ≠ some f → s.portServes 4 →
    let b := s.byteRead 0 17#8
    let x := b ||| 0x20#8
    let b' := if (s.answerAt 2).held then x else (s.answerAt 2).byte
    let x' := b' &&& 0xDF#8
    ∃ t : State, exec .neg s = .next t ∧ EndedOk s t ∧
      t.log = s.log ++ [.readOk 17#8 b, .writeOk 17#8 x, .readOk 17#8 b', .writeOk 17#8 x'] ∧
      t.periph.read 17#8 = x' ∧ SamePeriphBut [17#8] s t ∧
      t.ds = { s.ds with lastClass := some f } ∧ SameInputs s t ∧
      t.res0.toNat = p.sysclk ∧ t.res1.toNat + 2 ^ 32 * t.res2.toNat = p.bclk ∧ t.res3.toNat = p.divisor ∧
      t.res4.toNat = 4 + (match p.source with
        | .external44k1 => 0 | .external48k => 1 | .internal => 2 | .slaveUndefined => 3)

/-- R188: a transport failure at the `k`-th of the pulse's four transactions ends NEG with TRANSPORT, the last family and
the results unchanged, and PARTIAL set exactly if the assert write had succeeded. -/
def Obligations.FailedRelockKeepsTheLastFamily : Prop :=
  ∀ (s : State) (p : ClockPlan) (f : Family) (k : Nat), planClock s.cfg s.opArg0 s.opArg1 = .ok p →
    p.family = some f → s.ds.lastClass ≠ some f → s.wroteAny = false → k < 4 → s.portServes k →
    s.outcomeAt k = some .failed →
    ∃ t, exec .neg s = .next t ∧
      EndedWith (if k % 2 = 0 then .transportRead else .transportWrite) 17#8 (decide (2 ≤ k)) s t ∧
      t.ds = s.ds ∧ SameResults s t ∧ SamePeriphBut [17#8] s t ∧ t.log.length = s.log.length + k + 1

/-! The mute/format sequencer. -/

/-- R211: STREAM.START when the port serves its transactions. -/
def Obligations.StreamStartUnmutesIfNothingHoldsTheMute : Prop :=
  ∀ s : State,
    (s.ds.forceMute = true → ∃ t, exec .streamStart s = .next t ∧ EndedOk s t ∧
      t.ds = { s.ds with streamMuted := false } ∧ NoTransaction s t ∧ SameInputs s t ∧ SameResults s t) ∧
    (s.ds.forceMute = false → s.portServes 2 → ∃ t, exec .streamStart s = .next t ∧ EndedOk s t ∧
      t.ds = { s.ds with streamMuted := false } ∧
      t.log = s.log ++ [.readOk 10#8 (s.byteRead 0 10#8), .writeOk 10#8 (s.byteRead 0 10#8 &&& 0xFE#8)] ∧
      t.periph.read 10#8 = (s.byteRead 0 10#8 &&& 0xFE#8) ∧ SamePeriphBut [10#8] s t ∧ SameInputs s t ∧
      SameResults s t)

/-- R212: STREAM.STOP when the port serves its transactions. -/
def Obligations.StreamStopMutesUnderTheIdlePolicy : Prop :=
  ∀ s : State,
    (s.ds.muteMode = .never → ∃ t, exec .streamStop s = .next t ∧ EndedOk s t ∧
      t.ds = { s.ds with streamMuted := true } ∧ NoTransaction s t ∧ SameInputs s t ∧ SameResults s t) ∧
    (s.ds.muteMode = .onIdle → s.portServes 2 → ∃ t, exec .streamStop s = .next t ∧ EndedOk s t ∧
      t.ds = { s.ds with streamMuted := true } ∧
      t.log = s.log ++ [.readOk 10#8 (s.byteRead 0 10#8), .writeOk 10#8 (s.byteRead 0 10#8 ||| 0x01#8)] ∧
      t.periph.read 10#8 = (s.byteRead 0 10#8 ||| 0x01#8) ∧ SamePeriphBut [10#8] s t ∧ SameInputs s t ∧
      SameResults s t)

/-- R213, R214, R216: MUTE.SET, MUTE.CLR and MUTEMODE, when the port serves their two transactions, update DeviceState and
write the effective mute of the updated DeviceState to register 10 bit 0, keeping its other bits. -/
def Obligations.MuteCommandsApplyEffectiveMute : Prop :=
  ∀ (s : State) (i : Instr) (d : DeviceState), s.portServes 2 →
    (i = .muteSet ∧ d = { s.ds with forceMute := true }) ∨ (i = .muteClr ∧ d = { s.ds with forceMute := false }) ∨
      (i = .muteMode ∧ s.opArg0 = 0#32 ∧ d = { s.ds with muteMode := .never }) ∨
      (i = .muteMode ∧ s.opArg0 = 1#32 ∧ d = { s.ds with muteMode := .onIdle }) →
    let b := s.byteRead 0 10#8
    let x := if d.eff then b ||| 0x01#8 else b &&& 0xFE#8
    ∃ t, exec i s = .next t ∧ EndedOk s t ∧ t.ds = d ∧ t.log = s.log ++ [.readOk 10#8 b, .writeOk 10#8 x] ∧
      t.periph.read 10#8 = x ∧ SamePeriphBut [10#8] s t ∧ SameInputs s t ∧ SameResults s t

/-- R216: MUTEMODE with any of bits 31:1 set is OUT_OF_RANGE with no change and no transaction. -/
def Obligations.MuteModeRefusesOtherWords : Prop :=
  ∀ s : State, 1 < s.opArg0.toNat →
    ∃ t, exec .muteMode s = .next t ∧ EndedWith .outOfRange 0#8 false s t ∧ NoEffect s t ∧ SameInputs s t

/-- R215: FMT.SPDIF when the port serves its transactions: mute, force the SPDIF input, enable its autodetect, and unmute
only if effective mute is false; DeviceState does not change. -/
def Obligations.FmtSpdifSwitchesUnderMute : Prop :=
  ∀ s : State, s.portServes (if s.ds.eff then 6 else 8) →
    let b10 := s.byteRead 0 10#8
    let b8 := s.byteRead 2 8#8
    let b17 := s.byteRead 4 17#8
    let c10 := if (s.answerAt 6).held then b10 ||| 0x01#8 else (s.answerAt 6).byte
    ∃ t : State,
      let first : List PortEvent := [.readOk 10#8 b10, .writeOk 10#8 (b10 ||| 0x01#8), .readOk 8#8 b8,
        .writeOk 8#8 (b8 ||| 0x80#8), .readOk 17#8 b17, .writeOk 17#8 (b17 ||| 0x08#8)]
      exec .fmtSpdif s = .next t ∧ EndedOk s t ∧ t.ds = s.ds ∧ SameInputs s t ∧ SameResults s t ∧
      t.periph.read 8#8 = (b8 ||| 0x80#8) ∧ t.periph.read 17#8 = (b17 ||| 0x08#8) ∧
      SamePeriphBut [10#8, 8#8, 17#8] s t ∧
      (s.ds.eff = true → t.log = s.log ++ first ∧ t.periph.read 10#8 = (b10 ||| 0x01#8)) ∧
      (s.ds.eff = false →
        t.log = s.log ++ first ++ [.readOk 10#8 c10, .writeOk 10#8 (c10 &&& 0xFE#8)] ∧
        t.periph.read 10#8 = (c10 &&& 0xFE#8))

/-- R210: on every way a sequencer command can go, DeviceState is what its rule says, and a failed transaction leaves that
update in place. -/
def Obligations.SequencerUpdatesDeviceStateFirst : Prop :=
  ∀ (s t : State),
    (exec .streamStart s = .next t → t.ds = { s.ds with streamMuted := false }) ∧
    (exec .streamStop s = .next t → t.ds = { s.ds with streamMuted := true }) ∧
    (exec .muteSet s = .next t → t.ds = { s.ds with forceMute := true }) ∧
    (exec .muteClr s = .next t → t.ds = { s.ds with forceMute := false }) ∧
    (exec .fmtSpdif s = .next t → t.ds = s.ds) ∧
    (exec .muteMode s = .next t → s.opArg0 = 0#32 → t.ds = { s.ds with muteMode := .never }) ∧
    (exec .muteMode s = .next t → s.opArg0 = 1#32 → t.ds = { s.ds with muteMode := .onIdle })

/-- R217 (a), R32: a sequencer command, or CTL.WR MUTE, that ends without error leaves the hardware mute bit equal to
effective mute if it was so before, whatever the port answered. -/
def Obligations.SequencerKeepsTheMuteBitReflected : Prop :=
  ∀ (i : Instr) (s t : State),
    i ∈ [Instr.streamStart, .streamStop, .muteSet, .muteClr, .fmtSpdif, .muteMode, .ctlWr 0x01#8] →
    s.fsm = .busy → exec i s = .next t → t.fsm = .idle → t.status.report = .ok → s.muteReflected → t.muteReflected

/-- R217 (b), R215: however FMT.SPDIF goes, every transaction it issues on register 8 or 17, a read or a write, comes after a
write of register 10 that succeeded with bit 0 set. -/
def Obligations.SpdifMutesBeforeItReconfigures : Prop :=
  ∀ (s t : State), exec .fmtSpdif s = .next t → ∃ new, t.log = s.log ++ new ∧
    ∀ pre e post, new = pre ++ e :: post → (e.reg = 8#8 ∨ e.reg = 17#8) →
      ∃ v : Byte, PortEvent.writeOk 10#8 v ∈ pre ∧ v.getLsbD 0 = true

/-- R284, R217 (c): the hardware mute bit after a failed transaction. A failed read of a command that only writes register
10 leaves the whole peripheral as it was; FMT.SPDIF that fails at register 8 or 17 leaves the device muted; FMT.SPDIF that
fails to read register 10 leaves the bit as it was, or muted. -/
def Obligations.MuteBitAfterAFailure : Prop :=
  ∀ (i : Instr) (s t : State), s.fsm = .busy → exec i s = .next t → t.fsm = .idle →
    (i ∈ [Instr.streamStart, .streamStop, .muteSet, .muteClr, .muteMode] → t.status.report = .transportRead →
      t.status.failAddr = 10#8 ∧ t.periph = s.periph) ∧
    (i = .fmtSpdif → t.status.report.isTransport = true → t.status.failAddr ∈ [8#8, 17#8] → t.muteBit = true) ∧
    (i = .fmtSpdif → t.status.report = .transportRead → t.status.failAddr = 10#8 →
      t.muteBit = s.muteBit ∨ t.muteBit = true)

/-! All commands. -/

/-- R24, R34, R91: no command changes the operand registers, the configuration, the latched command, LAST_OP or the host's
remaining moves, but that a host which detaches while the command is in progress makes that its next move (R272; DESIGN
CHOICE, notes/assumptions/16.md). -/
def Obligations.NoCommandChangesItsInputs : Prop :=
  ∀ (i : Instr) (s t : State), exec i s = .next t →
    SameInputs s t ∨ (t.fsm = s.fsm ∧ ∃ u, SameInputs s u ∧ t = u.leave)

/-- R96: which result registers a command can change, and that none changes unless it ends without error. -/
def Obligations.ResultsChangeOnlyOnSuccess : Prop :=
  ∀ (i : Instr) (s t : State), s.fsm = .busy → exec i s = .next t →
    (t.fsm = .busy ∨ t.status.report ≠ .ok → SameResults s t) ∧
    (i = .volFwd ∨ i = .volInv ∨ (∃ ctl, i = .ctlRd ctl) → SameResultsButRes0 s t) ∧
    ((∃ ctl, i = .ctlWr ctl) ∨ i ∈ [Instr.streamStart, .streamStop, .muteSet, .muteClr, .fmtSpdif, .muteMode] →
      SameResults s t)

/-- R27 to R30: which DeviceState field a command can change. -/
def Obligations.DeviceStateFieldsHaveTheirWriters : Prop :=
  ∀ (i : Instr) (s t : State), exec i s = .next t →
    (i ∉ [Instr.muteSet, .muteClr, .ctlWr 0x01#8] → t.ds.forceMute = s.ds.forceMute) ∧
    (i ∉ [Instr.streamStart, .streamStop] → t.ds.streamMuted = s.ds.streamMuted) ∧
    (i ≠ .muteMode → t.ds.muteMode = s.ds.muteMode) ∧
    (i ≠ .neg → t.ds.lastClass = s.ds.lastClass)

/-- R67, R71, R152, R193, R160, R289: however a command goes, the registers of the peripheral it can write, those it can read
or write, all of them among those R67 lists, and the greatest number of transactions it issues, which is at most 8. -/
def Obligations.CommandsStayWithinTheirPlans : Prop :=
  ∀ (i : Instr) (s t : State), exec i s = .next t →
    SamePeriphBut (commandRegisters i) s t ∧ commandTransactions i ≤ 8 ∧
    ∃ new, t.log = s.log ++ new ∧ new.length ≤ commandTransactions i ∧ t.planPos = s.planPos + new.length ∧
      (∀ e ∈ new, ∀ a, e.writesTo a = true → a ∈ commandRegisters i) ∧
      ∀ e ∈ new, e.reg ∈ commandReaches i ∧
        e.reg ∈ [8#8, 10#8, 11#8, 12#8, 14#8, 15#8, 17#8, 18#8, 20#8, 21#8, 22#8, 23#8, 25#8]

/-- R150, R241: DEGRADED is set by CTL.RD alone, and no command clears it or OVERRUN. -/
def Obligations.DegradedIsSetByReadsOnly : Prop :=
  ∀ (i : Instr) (s t : State), exec i s = .next t →
    ((∀ ctl, i ≠ .ctlRd ctl) → t.status.degraded = s.status.degraded) ∧
    (s.status.degraded = true → t.status.degraded = true) ∧ (s.status.overrun = true → t.status.overrun = true)

/-- R245: PARTIAL is set exactly when an accepted command ends with TRANSPORT after a write of its own succeeded; an
illegal word leaves it 0. -/
def Obligations.PartialMeansAWriteSucceededFirst : Prop :=
  (∀ (i : Instr) (s t : State), s.fsm = .busy → s.wroteAny = false → exec i s = .next t → t.fsm = .idle →
    ∃ new, t.log = s.log ++ new ∧
      (t.status.isPartial = true ↔ t.status.report.err = 2 ∧ ∃ a v, PortEvent.writeOk a v ∈ new)) ∧
  (∀ (s t : State) (w : Word) (rest : List HostMove) (e : DecodeError), s.attached = true → s.fsm = .idle →
    s.host.moves = .write 0x00 4 w :: rest → decode w = .error e → step s = .next t → t.status.isPartial = false)

/-- R248, R242, R15: a command that ends with TRANSPORT issued transactions that succeeded and stay applied, then the
failing one, whose address and kind it reports, and none after it. R242, R15, R210: and a failed transaction of any command
but CTL.RD is its last and ends it with TRANSPORT of its kind at its register. -/
def Obligations.TransportErrorsArePrecise : Prop :=
  (∀ (i : Instr) (s t : State), s.fsm = .busy → exec i s = .next t → t.fsm = .idle → t.status.report.isTransport = true →
    ∃ (pre : List PortEvent) (e : PortEvent), t.log = s.log ++ pre ++ [e] ∧ (∀ x ∈ pre, x.isOk = true) ∧
      ((t.status.report = .transportRead ∧ e = .readFailed t.status.failAddr) ∨
       (t.status.report = .transportWrite ∧ ∃ v, e = .writeFailed t.status.failAddr v)) ∧
      (∀ a : Byte, (t.status.report = .transportRead ∨ a ≠ t.status.failAddr) →
        some (t.periph.read a) = pre.foldl (PortEvent.settles a) (some (s.periph.read a)))) ∧
  (∀ (i : Instr) (s t : State) (new : List PortEvent) (e : PortEvent) (a : Byte), s.fsm = .busy →
    (∀ ctl, i ≠ .ctlRd ctl) → exec i s = .next t → t.log = s.log ++ new → e ∈ new →
    (e = .readFailed a ∨ ∃ v, e = .writeFailed a v) →
    t.fsm = .idle ∧ t.status.failAddr = a ∧ (e = .readFailed a → t.status.report = .transportRead) ∧
      (e ≠ .readFailed a → t.status.report = .transportWrite) ∧ ∃ pre, new = pre ++ [e] ∧ e ∉ pre)

/-- R289, R260 (c), R272: a command left BUSY has its results, DONE and report as they were, and either its last
transaction, after successful ones, is one that is never answered, or the host detaches next and every transaction it issued
has succeeded; any command whose last transaction is never answered is left BUSY; a BUSY block whose host makes no move has
no step. That `DEVSTATE` is unchanged while BUSY follows R76 where R26 reads otherwise, and is the model's choice (DEDUCED,
notes/assumptions/7.md); when a detach can come is the model's choice too (DESIGN CHOICE, notes/assumptions/16.md). -/
def Obligations.SilentPortLeavesTheBlockBusy : Prop :=
  (∀ (i : Instr) (s t : State), s.fsm = .busy → exec i s = .next t → t.fsm = .busy →
    SameResults s t ∧ t.status.done = s.status.done ∧ t.status.report = s.status.report ∧ t.devstate = s.devstate ∧
      ((t.host.moves = s.host.moves ∧
          ∃ pre e, t.log = s.log ++ pre ++ [e] ∧ (∀ x ∈ pre, x.isOk = true) ∧ e.isUnanswered = true) ∨
        (t.host.moves = .detach :: s.host.moves ∧ ∃ new, t.log = s.log ++ new ∧ ∀ x ∈ new, x.isOk = true))) ∧
  (∀ s : State, s.fsm = .busy → s.outcomeAt 0 = some .never → ∃ t, exec .muteSet s = .next t ∧ t.fsm = .busy ∧
    t.host.moves = s.host.moves) ∧
  (∀ (i : Instr) (s t : State) (pre : List PortEvent) (e : PortEvent), s.fsm = .busy → exec i s = .next t →
    t.log = s.log ++ pre ++ [e] → e.isUnanswered = true → t.fsm = .busy) ∧
  (∀ s : State, s.fsm = .busy → s.host.moves = [] → step s = .fault .portNeverAnswers)

/-- R92: an ignored operand has no effect. -/
def Obligations.IgnoredOperandsHaveNoEffect : Prop :=
  ∀ (i : Instr) (s t : State) (x y : Word), exec i s = .next t →
    (i ≠ .neg → exec i { s with opArg1 := y } = .next { t with opArg1 := y }) ∧
    ((∃ ctl, i = .ctlRd ctl) ∨ i ∈ [Instr.streamStart, .streamStop, .muteSet, .muteClr, .fmtSpdif] →
      exec i { s with opArg0 := x, opArg1 := y } = .next { t with opArg0 := x, opArg1 := y })

/-! Attach, detach and the invariant. -/

/-- R40: every piece of block state after attach, for any configuration, each register of the peripheral at its entry of
`PERIPH_INIT`, and that the state after reset is one such. -/
def Obligations.AttachLeavesTheStatedValues : Prop :=
  (∀ c : Cfg,
    let s := State.atAttach c
    s.ds.forceMute = false ∧ s.ds.streamMuted = true ∧ s.ds.muteMode = .onIdle ∧ s.ds.lastClass = none ∧
    s.ds.eff = true ∧ s.fsm = .idle ∧ s.arg0 = 0#32 ∧ s.arg1 = 0#32 ∧ s.res0 = 0#32 ∧ s.res1 = 0#32 ∧
    s.res2 = 0#32 ∧ s.res3 = 0#32 ∧ s.res4 = 0#32 ∧ windowRead .status s = 0#32 ∧
    windowRead .devstate s = 0x0000000E#32 ∧ s.devstate = s.ds.image ∧ s.cfg = c ∧ s.log = [] ∧
    ∀ a : Byte, s.periph.read a = Config.periphInit[a.toNat]'a.isLt) ∧
  ∃ c : Cfg, State.reset = State.atAttach c

/-- R270, R271, R272: an attach of an absent block with a table R122 allows puts every piece of block state at the value of
R40 and issues no transaction, the peripheral keeping what it held; a detach discards every piece of block state and keeps
what was written, also of a block with a command in progress. That the discarded state stands at the values of attach, with
the old configuration, is the model's choice (DESIGN CHOICE, notes/assumptions/16.md), as are the values of attach of the
latched word and operands, the plan position and `wrote_any` (notes/assumptions/10.md). -/
def Obligations.AttachAndDetachMoves : Prop :=
  ∀ (s : State) (rest : List HostMove),
    (∀ c : Cfg, s.host.moves = .attach c :: rest → s.attached = false → c.wellFormed = true →
      ∃ t, step s = .next t ∧ t.attached = true ∧ BlockAtAttach t ∧ t.cfg = c ∧ t.log = s.log ∧ t.periph = s.periph ∧
        t.port = s.port ∧ t.host = { s.host with moves := rest }) ∧
    (s.host.moves = .detach :: rest → s.attached = true →
      ∃ t, step s = .next t ∧ t.attached = false ∧ BlockAtAttach t ∧ t.cfg = s.cfg ∧ t.log = s.log ∧
        t.periph = s.periph ∧ t.port = s.port ∧ t.host = { s.host with moves := rest })

/-- R272: a host that detaches while a command is in progress abandons it after its last completed transaction: no further
one is issued, each one issued has succeeded and stays applied, and the very next step discards every piece of block state.
For CTL.WR VOLUME the detach comes after `k` of its four writes. That the detach is a step of its own, and that the discarded
state stands at the values of attach, is the model's choice (DESIGN CHOICE, notes/assumptions/16.md), as are the values of
attach of the latched word and operands, the plan position and `wrote_any` (notes/assumptions/10.md). -/
def Obligations.DetachAbandonsTheCommand : Prop :=
  (∀ (i : Instr) (s t : State), s.attached = true → s.fsm = .busy → exec i s = .next t →
    t.host.moves ≠ s.host.moves →
    ∃ (new : List PortEvent) (u : State), t.fsm = .busy ∧ t.log = s.log ++ new ∧ (∀ x ∈ new, x.isOk = true) ∧
      (∀ a : Byte, some (t.periph.read a) = new.foldl (PortEvent.settles a) (some (s.periph.read a))) ∧
      t.host.moves = .detach :: s.host.moves ∧ step t = .next u ∧ u.attached = false ∧ BlockAtAttach u ∧
      u.log = t.log ∧ u.periph = t.periph ∧ u.host.moves = s.host.moves) ∧
  (∀ (s : State) (k : Nat), s.opArg0.toNat ≤ 199 → k < 4 → s.portServes k → s.outcomeAt k = none →
    ∃ t, exec (.ctlWr 0x00#8) s = .next t ∧ t.host.moves = .detach :: s.host.moves ∧ t.log.length = s.log.length + k ∧
      SamePeriphBut ([23#8, 22#8, 21#8, 20#8].take k) s t)

/-- The invariant (R25, R26, R122, R183, R189, R192, R245, R246, R291) holds after reset. -/
def Obligations.ResetMeetsTheInvariant : Prop := State.reset.Inv

/-- R25, R26, R122, R183, R189, R192, R245, R246, R291: every step keeps the invariant. -/
def Obligations.EveryStepKeepsTheInvariant : Prop :=
  ∀ s t : State, s.Inv → step s = .next t → t.Inv
end

