-- ==== Sys2Proof/Laws/State.lean ====
section
/-! SUPPORT. The fields of every update of the state, one lemma per field per update, so that no proof unfolds a record
update. -/

namespace Sys2Proof.Machine

@[simp] theorem State.setRdata_attached (v : Word) (s : State) : (s.setRdata v).attached = s.attached := rfl
@[simp] theorem State.setRdata_fsm (v : Word) (s : State) : (s.setRdata v).fsm = s.fsm := rfl
@[simp] theorem State.setRdata_cmdWord (v : Word) (s : State) : (s.setRdata v).cmdWord = s.cmdWord := rfl
@[simp] theorem State.setRdata_opArg0 (v : Word) (s : State) : (s.setRdata v).opArg0 = s.opArg0 := rfl
@[simp] theorem State.setRdata_opArg1 (v : Word) (s : State) : (s.setRdata v).opArg1 = s.opArg1 := rfl
@[simp] theorem State.setRdata_planPos (v : Word) (s : State) : (s.setRdata v).planPos = s.planPos := rfl
@[simp] theorem State.setRdata_wroteAny (v : Word) (s : State) : (s.setRdata v).wroteAny = s.wroteAny := rfl
@[simp] theorem State.setRdata_arg0 (v : Word) (s : State) : (s.setRdata v).arg0 = s.arg0 := rfl
@[simp] theorem State.setRdata_arg1 (v : Word) (s : State) : (s.setRdata v).arg1 = s.arg1 := rfl
@[simp] theorem State.setRdata_res0 (v : Word) (s : State) : (s.setRdata v).res0 = s.res0 := rfl
@[simp] theorem State.setRdata_res1 (v : Word) (s : State) : (s.setRdata v).res1 = s.res1 := rfl
@[simp] theorem State.setRdata_res2 (v : Word) (s : State) : (s.setRdata v).res2 = s.res2 := rfl
@[simp] theorem State.setRdata_res3 (v : Word) (s : State) : (s.setRdata v).res3 = s.res3 := rfl
@[simp] theorem State.setRdata_res4 (v : Word) (s : State) : (s.setRdata v).res4 = s.res4 := rfl
@[simp] theorem State.setRdata_status (v : Word) (s : State) : (s.setRdata v).status = s.status := rfl
@[simp] theorem State.setRdata_devstate (v : Word) (s : State) : (s.setRdata v).devstate = s.devstate := rfl
@[simp] theorem State.setRdata_ds (v : Word) (s : State) : (s.setRdata v).ds = s.ds := rfl
@[simp] theorem State.setRdata_cfg (v : Word) (s : State) : (s.setRdata v).cfg = s.cfg := rfl
@[simp] theorem State.setRdata_periph (v : Word) (s : State) : (s.setRdata v).periph = s.periph := rfl
@[simp] theorem State.setRdata_log (v : Word) (s : State) : (s.setRdata v).log = s.log := rfl
@[simp] theorem State.setRdata_port (v : Word) (s : State) : (s.setRdata v).port = s.port := rfl
@[simp] theorem State.setRdata_host (v : Word) (s : State) : (s.setRdata v).host = { s.host with rdata := v } := rfl

@[simp] theorem State.setOverrun_attached (s : State) : s.setOverrun.attached = s.attached := rfl
@[simp] theorem State.setOverrun_fsm (s : State) : s.setOverrun.fsm = s.fsm := rfl
@[simp] theorem State.setOverrun_cmdWord (s : State) : s.setOverrun.cmdWord = s.cmdWord := rfl
@[simp] theorem State.setOverrun_opArg0 (s : State) : s.setOverrun.opArg0 = s.opArg0 := rfl
@[simp] theorem State.setOverrun_opArg1 (s : State) : s.setOverrun.opArg1 = s.opArg1 := rfl
@[simp] theorem State.setOverrun_planPos (s : State) : s.setOverrun.planPos = s.planPos := rfl
@[simp] theorem State.setOverrun_wroteAny (s : State) : s.setOverrun.wroteAny = s.wroteAny := rfl
@[simp] theorem State.setOverrun_arg0 (s : State) : s.setOverrun.arg0 = s.arg0 := rfl
@[simp] theorem State.setOverrun_arg1 (s : State) : s.setOverrun.arg1 = s.arg1 := rfl
@[simp] theorem State.setOverrun_res0 (s : State) : s.setOverrun.res0 = s.res0 := rfl
@[simp] theorem State.setOverrun_res1 (s : State) : s.setOverrun.res1 = s.res1 := rfl
@[simp] theorem State.setOverrun_res2 (s : State) : s.setOverrun.res2 = s.res2 := rfl
@[simp] theorem State.setOverrun_res3 (s : State) : s.setOverrun.res3 = s.res3 := rfl
@[simp] theorem State.setOverrun_res4 (s : State) : s.setOverrun.res4 = s.res4 := rfl
@[simp] theorem State.setOverrun_status (s : State) : s.setOverrun.status = { s.status with overrun := true } := rfl
@[simp] theorem State.setOverrun_devstate (s : State) : s.setOverrun.devstate = s.devstate := rfl
@[simp] theorem State.setOverrun_ds (s : State) : s.setOverrun.ds = s.ds := rfl
@[simp] theorem State.setOverrun_cfg (s : State) : s.setOverrun.cfg = s.cfg := rfl
@[simp] theorem State.setOverrun_periph (s : State) : s.setOverrun.periph = s.periph := rfl
@[simp] theorem State.setOverrun_log (s : State) : s.setOverrun.log = s.log := rfl
@[simp] theorem State.setOverrun_port (s : State) : s.setOverrun.port = s.port := rfl
@[simp] theorem State.setOverrun_host (s : State) : s.setOverrun.host = s.host := rfl

@[simp] theorem State.setMeanwhile_attached (l : List (List WinAccess)) (s : State) : (s.setMeanwhile l).attached = s.attached := rfl
@[simp] theorem State.setMeanwhile_fsm (l : List (List WinAccess)) (s : State) : (s.setMeanwhile l).fsm = s.fsm := rfl
@[simp] theorem State.setMeanwhile_cmdWord (l : List (List WinAccess)) (s : State) : (s.setMeanwhile l).cmdWord = s.cmdWord := rfl
@[simp] theorem State.setMeanwhile_opArg0 (l : List (List WinAccess)) (s : State) : (s.setMeanwhile l).opArg0 = s.opArg0 := rfl
@[simp] theorem State.setMeanwhile_opArg1 (l : List (List WinAccess)) (s : State) : (s.setMeanwhile l).opArg1 = s.opArg1 := rfl
@[simp] theorem State.setMeanwhile_planPos (l : List (List WinAccess)) (s : State) : (s.setMeanwhile l).planPos = s.planPos := rfl
@[simp] theorem State.setMeanwhile_wroteAny (l : List (List WinAccess)) (s : State) : (s.setMeanwhile l).wroteAny = s.wroteAny := rfl
@[simp] theorem State.setMeanwhile_arg0 (l : List (List WinAccess)) (s : State) : (s.setMeanwhile l).arg0 = s.arg0 := rfl
@[simp] theorem State.setMeanwhile_arg1 (l : List (List WinAccess)) (s : State) : (s.setMeanwhile l).arg1 = s.arg1 := rfl
@[simp] theorem State.setMeanwhile_res0 (l : List (List WinAccess)) (s : State) : (s.setMeanwhile l).res0 = s.res0 := rfl
@[simp] theorem State.setMeanwhile_res1 (l : List (List WinAccess)) (s : State) : (s.setMeanwhile l).res1 = s.res1 := rfl
@[simp] theorem State.setMeanwhile_res2 (l : List (List WinAccess)) (s : State) : (s.setMeanwhile l).res2 = s.res2 := rfl
@[simp] theorem State.setMeanwhile_res3 (l : List (List WinAccess)) (s : State) : (s.setMeanwhile l).res3 = s.res3 := rfl
@[simp] theorem State.setMeanwhile_res4 (l : List (List WinAccess)) (s : State) : (s.setMeanwhile l).res4 = s.res4 := rfl
@[simp] theorem State.setMeanwhile_status (l : List (List WinAccess)) (s : State) : (s.setMeanwhile l).status = s.status := rfl
@[simp] theorem State.setMeanwhile_devstate (l : List (List WinAccess)) (s : State) : (s.setMeanwhile l).devstate = s.devstate := rfl
@[simp] theorem State.setMeanwhile_ds (l : List (List WinAccess)) (s : State) : (s.setMeanwhile l).ds = s.ds := rfl
@[simp] theorem State.setMeanwhile_cfg (l : List (List WinAccess)) (s : State) : (s.setMeanwhile l).cfg = s.cfg := rfl
@[simp] theorem State.setMeanwhile_periph (l : List (List WinAccess)) (s : State) : (s.setMeanwhile l).periph = s.periph := rfl
@[simp] theorem State.setMeanwhile_log (l : List (List WinAccess)) (s : State) : (s.setMeanwhile l).log = s.log := rfl
@[simp] theorem State.setMeanwhile_port (l : List (List WinAccess)) (s : State) : (s.setMeanwhile l).port = s.port := rfl
@[simp] theorem State.setMeanwhile_host (l : List (List WinAccess)) (s : State) : (s.setMeanwhile l).host = { s.host with meanwhile := l } := rfl

@[simp] theorem State.useAnswer_attached (s : State) : s.useAnswer.attached = s.attached := rfl
@[simp] theorem State.useAnswer_fsm (s : State) : s.useAnswer.fsm = s.fsm := rfl
@[simp] theorem State.useAnswer_cmdWord (s : State) : s.useAnswer.cmdWord = s.cmdWord := rfl
@[simp] theorem State.useAnswer_opArg0 (s : State) : s.useAnswer.opArg0 = s.opArg0 := rfl
@[simp] theorem State.useAnswer_opArg1 (s : State) : s.useAnswer.opArg1 = s.opArg1 := rfl
@[simp] theorem State.useAnswer_planPos (s : State) : s.useAnswer.planPos = s.planPos := rfl
@[simp] theorem State.useAnswer_wroteAny (s : State) : s.useAnswer.wroteAny = s.wroteAny := rfl
@[simp] theorem State.useAnswer_arg0 (s : State) : s.useAnswer.arg0 = s.arg0 := rfl
@[simp] theorem State.useAnswer_arg1 (s : State) : s.useAnswer.arg1 = s.arg1 := rfl
@[simp] theorem State.useAnswer_res0 (s : State) : s.useAnswer.res0 = s.res0 := rfl
@[simp] theorem State.useAnswer_res1 (s : State) : s.useAnswer.res1 = s.res1 := rfl
@[simp] theorem State.useAnswer_res2 (s : State) : s.useAnswer.res2 = s.res2 := rfl
@[simp] theorem State.useAnswer_res3 (s : State) : s.useAnswer.res3 = s.res3 := rfl
@[simp] theorem State.useAnswer_res4 (s : State) : s.useAnswer.res4 = s.res4 := rfl
@[simp] theorem State.useAnswer_status (s : State) : s.useAnswer.status = s.status := rfl
@[simp] theorem State.useAnswer_devstate (s : State) : s.useAnswer.devstate = s.devstate := rfl
@[simp] theorem State.useAnswer_ds (s : State) : s.useAnswer.ds = s.ds := rfl
@[simp] theorem State.useAnswer_cfg (s : State) : s.useAnswer.cfg = s.cfg := rfl
@[simp] theorem State.useAnswer_periph (s : State) : s.useAnswer.periph = s.periph := rfl
@[simp] theorem State.useAnswer_log (s : State) : s.useAnswer.log = s.log := rfl
@[simp] theorem State.useAnswer_port (s : State) : s.useAnswer.port = { answers := s.port.answers.tail, drawn := s.port.drawn + 1 } := rfl
@[simp] theorem State.useAnswer_host (s : State) : s.useAnswer.host = { s.host with departs := s.host.departs.tail } := rfl

@[simp] theorem State.leave_attached (s : State) : s.leave.attached = s.attached := rfl
@[simp] theorem State.leave_fsm (s : State) : s.leave.fsm = s.fsm := rfl
@[simp] theorem State.leave_cmdWord (s : State) : s.leave.cmdWord = s.cmdWord := rfl
@[simp] theorem State.leave_opArg0 (s : State) : s.leave.opArg0 = s.opArg0 := rfl
@[simp] theorem State.leave_opArg1 (s : State) : s.leave.opArg1 = s.opArg1 := rfl
@[simp] theorem State.leave_planPos (s : State) : s.leave.planPos = s.planPos := rfl
@[simp] theorem State.leave_wroteAny (s : State) : s.leave.wroteAny = s.wroteAny := rfl
@[simp] theorem State.leave_arg0 (s : State) : s.leave.arg0 = s.arg0 := rfl
@[simp] theorem State.leave_arg1 (s : State) : s.leave.arg1 = s.arg1 := rfl
@[simp] theorem State.leave_res0 (s : State) : s.leave.res0 = s.res0 := rfl
@[simp] theorem State.leave_res1 (s : State) : s.leave.res1 = s.res1 := rfl
@[simp] theorem State.leave_res2 (s : State) : s.leave.res2 = s.res2 := rfl
@[simp] theorem State.leave_res3 (s : State) : s.leave.res3 = s.res3 := rfl
@[simp] theorem State.leave_res4 (s : State) : s.leave.res4 = s.res4 := rfl
@[simp] theorem State.leave_status (s : State) : s.leave.status = s.status := rfl
@[simp] theorem State.leave_devstate (s : State) : s.leave.devstate = s.devstate := rfl
@[simp] theorem State.leave_ds (s : State) : s.leave.ds = s.ds := rfl
@[simp] theorem State.leave_cfg (s : State) : s.leave.cfg = s.cfg := rfl
@[simp] theorem State.leave_periph (s : State) : s.leave.periph = s.periph := rfl
@[simp] theorem State.leave_log (s : State) : s.leave.log = s.log := rfl
@[simp] theorem State.leave_port (s : State) : s.leave.port = s.port := rfl
@[simp] theorem State.leave_host (s : State) :
    s.leave.host = { s.host with moves := .detach :: s.host.moves, departs := s.host.departs.tail } := rfl

@[simp] theorem State.issued_attached (e : PortEvent) (s : State) : (s.issued e).attached = s.attached := rfl
@[simp] theorem State.issued_fsm (e : PortEvent) (s : State) : (s.issued e).fsm = s.fsm := rfl
@[simp] theorem State.issued_cmdWord (e : PortEvent) (s : State) : (s.issued e).cmdWord = s.cmdWord := rfl
@[simp] theorem State.issued_opArg0 (e : PortEvent) (s : State) : (s.issued e).opArg0 = s.opArg0 := rfl
@[simp] theorem State.issued_opArg1 (e : PortEvent) (s : State) : (s.issued e).opArg1 = s.opArg1 := rfl
@[simp] theorem State.issued_planPos (e : PortEvent) (s : State) : (s.issued e).planPos = s.planPos + 1 := rfl
@[simp] theorem State.issued_wroteAny (e : PortEvent) (s : State) : (s.issued e).wroteAny = s.wroteAny := rfl
@[simp] theorem State.issued_arg0 (e : PortEvent) (s : State) : (s.issued e).arg0 = s.arg0 := rfl
@[simp] theorem State.issued_arg1 (e : PortEvent) (s : State) : (s.issued e).arg1 = s.arg1 := rfl
@[simp] theorem State.issued_res0 (e : PortEvent) (s : State) : (s.issued e).res0 = s.res0 := rfl
@[simp] theorem State.issued_res1 (e : PortEvent) (s : State) : (s.issued e).res1 = s.res1 := rfl
@[simp] theorem State.issued_res2 (e : PortEvent) (s : State) : (s.issued e).res2 = s.res2 := rfl
@[simp] theorem State.issued_res3 (e : PortEvent) (s : State) : (s.issued e).res3 = s.res3 := rfl
@[simp] theorem State.issued_res4 (e : PortEvent) (s : State) : (s.issued e).res4 = s.res4 := rfl
@[simp] theorem State.issued_status (e : PortEvent) (s : State) : (s.issued e).status = s.status := rfl
@[simp] theorem State.issued_devstate (e : PortEvent) (s : State) : (s.issued e).devstate = s.devstate := rfl
@[simp] theorem State.issued_ds (e : PortEvent) (s : State) : (s.issued e).ds = s.ds := rfl
@[simp] theorem State.issued_cfg (e : PortEvent) (s : State) : (s.issued e).cfg = s.cfg := rfl
@[simp] theorem State.issued_periph (e : PortEvent) (s : State) : (s.issued e).periph = s.periph := rfl
@[simp] theorem State.issued_log (e : PortEvent) (s : State) : (s.issued e).log = s.log ++ [e] := rfl
@[simp] theorem State.issued_port (e : PortEvent) (s : State) : (s.issued e).port = s.port := rfl
@[simp] theorem State.issued_host (e : PortEvent) (s : State) : (s.issued e).host = s.host := rfl

@[simp] theorem State.setPeriph_attached (a v : Byte) (s : State) : (s.setPeriph a v).attached = s.attached := rfl
@[simp] theorem State.setPeriph_fsm (a v : Byte) (s : State) : (s.setPeriph a v).fsm = s.fsm := rfl
@[simp] theorem State.setPeriph_cmdWord (a v : Byte) (s : State) : (s.setPeriph a v).cmdWord = s.cmdWord := rfl
@[simp] theorem State.setPeriph_opArg0 (a v : Byte) (s : State) : (s.setPeriph a v).opArg0 = s.opArg0 := rfl
@[simp] theorem State.setPeriph_opArg1 (a v : Byte) (s : State) : (s.setPeriph a v).opArg1 = s.opArg1 := rfl
@[simp] theorem State.setPeriph_planPos (a v : Byte) (s : State) : (s.setPeriph a v).planPos = s.planPos := rfl
@[simp] theorem State.setPeriph_wroteAny (a v : Byte) (s : State) : (s.setPeriph a v).wroteAny = s.wroteAny := rfl
@[simp] theorem State.setPeriph_arg0 (a v : Byte) (s : State) : (s.setPeriph a v).arg0 = s.arg0 := rfl
@[simp] theorem State.setPeriph_arg1 (a v : Byte) (s : State) : (s.setPeriph a v).arg1 = s.arg1 := rfl
@[simp] theorem State.setPeriph_res0 (a v : Byte) (s : State) : (s.setPeriph a v).res0 = s.res0 := rfl
@[simp] theorem State.setPeriph_res1 (a v : Byte) (s : State) : (s.setPeriph a v).res1 = s.res1 := rfl
@[simp] theorem State.setPeriph_res2 (a v : Byte) (s : State) : (s.setPeriph a v).res2 = s.res2 := rfl
@[simp] theorem State.setPeriph_res3 (a v : Byte) (s : State) : (s.setPeriph a v).res3 = s.res3 := rfl
@[simp] theorem State.setPeriph_res4 (a v : Byte) (s : State) : (s.setPeriph a v).res4 = s.res4 := rfl
@[simp] theorem State.setPeriph_status (a v : Byte) (s : State) : (s.setPeriph a v).status = s.status := rfl
@[simp] theorem State.setPeriph_devstate (a v : Byte) (s : State) : (s.setPeriph a v).devstate = s.devstate := rfl
@[simp] theorem State.setPeriph_ds (a v : Byte) (s : State) : (s.setPeriph a v).ds = s.ds := rfl
@[simp] theorem State.setPeriph_cfg (a v : Byte) (s : State) : (s.setPeriph a v).cfg = s.cfg := rfl
@[simp] theorem State.setPeriph_periph (a v : Byte) (s : State) : (s.setPeriph a v).periph = s.periph.write a v := rfl
@[simp] theorem State.setPeriph_log (a v : Byte) (s : State) : (s.setPeriph a v).log = s.log := rfl
@[simp] theorem State.setPeriph_port (a v : Byte) (s : State) : (s.setPeriph a v).port = s.port := rfl
@[simp] theorem State.setPeriph_host (a v : Byte) (s : State) : (s.setPeriph a v).host = s.host := rfl

@[simp] theorem State.setWroteAny_attached (s : State) : s.setWroteAny.attached = s.attached := rfl
@[simp] theorem State.setWroteAny_fsm (s : State) : s.setWroteAny.fsm = s.fsm := rfl
@[simp] theorem State.setWroteAny_cmdWord (s : State) : s.setWroteAny.cmdWord = s.cmdWord := rfl
@[simp] theorem State.setWroteAny_opArg0 (s : State) : s.setWroteAny.opArg0 = s.opArg0 := rfl
@[simp] theorem State.setWroteAny_opArg1 (s : State) : s.setWroteAny.opArg1 = s.opArg1 := rfl
@[simp] theorem State.setWroteAny_planPos (s : State) : s.setWroteAny.planPos = s.planPos := rfl
@[simp] theorem State.setWroteAny_wroteAny (s : State) : s.setWroteAny.wroteAny = true := rfl
@[simp] theorem State.setWroteAny_arg0 (s : State) : s.setWroteAny.arg0 = s.arg0 := rfl
@[simp] theorem State.setWroteAny_arg1 (s : State) : s.setWroteAny.arg1 = s.arg1 := rfl
@[simp] theorem State.setWroteAny_res0 (s : State) : s.setWroteAny.res0 = s.res0 := rfl
@[simp] theorem State.setWroteAny_res1 (s : State) : s.setWroteAny.res1 = s.res1 := rfl
@[simp] theorem State.setWroteAny_res2 (s : State) : s.setWroteAny.res2 = s.res2 := rfl
@[simp] theorem State.setWroteAny_res3 (s : State) : s.setWroteAny.res3 = s.res3 := rfl
@[simp] theorem State.setWroteAny_res4 (s : State) : s.setWroteAny.res4 = s.res4 := rfl
@[simp] theorem State.setWroteAny_status (s : State) : s.setWroteAny.status = s.status := rfl
@[simp] theorem State.setWroteAny_devstate (s : State) : s.setWroteAny.devstate = s.devstate := rfl
@[simp] theorem State.setWroteAny_ds (s : State) : s.setWroteAny.ds = s.ds := rfl
@[simp] theorem State.setWroteAny_cfg (s : State) : s.setWroteAny.cfg = s.cfg := rfl
@[simp] theorem State.setWroteAny_periph (s : State) : s.setWroteAny.periph = s.periph := rfl
@[simp] theorem State.setWroteAny_log (s : State) : s.setWroteAny.log = s.log := rfl
@[simp] theorem State.setWroteAny_port (s : State) : s.setWroteAny.port = s.port := rfl
@[simp] theorem State.setWroteAny_host (s : State) : s.setWroteAny.host = s.host := rfl

@[simp] theorem State.setDs_attached (d : DeviceState) (s : State) : (s.setDs d).attached = s.attached := rfl
@[simp] theorem State.setDs_fsm (d : DeviceState) (s : State) : (s.setDs d).fsm = s.fsm := rfl
@[simp] theorem State.setDs_cmdWord (d : DeviceState) (s : State) : (s.setDs d).cmdWord = s.cmdWord := rfl
@[simp] theorem State.setDs_opArg0 (d : DeviceState) (s : State) : (s.setDs d).opArg0 = s.opArg0 := rfl
@[simp] theorem State.setDs_opArg1 (d : DeviceState) (s : State) : (s.setDs d).opArg1 = s.opArg1 := rfl
@[simp] theorem State.setDs_planPos (d : DeviceState) (s : State) : (s.setDs d).planPos = s.planPos := rfl
@[simp] theorem State.setDs_wroteAny (d : DeviceState) (s : State) : (s.setDs d).wroteAny = s.wroteAny := rfl
@[simp] theorem State.setDs_arg0 (d : DeviceState) (s : State) : (s.setDs d).arg0 = s.arg0 := rfl
@[simp] theorem State.setDs_arg1 (d : DeviceState) (s : State) : (s.setDs d).arg1 = s.arg1 := rfl
@[simp] theorem State.setDs_res0 (d : DeviceState) (s : State) : (s.setDs d).res0 = s.res0 := rfl
@[simp] theorem State.setDs_res1 (d : DeviceState) (s : State) : (s.setDs d).res1 = s.res1 := rfl
@[simp] theorem State.setDs_res2 (d : DeviceState) (s : State) : (s.setDs d).res2 = s.res2 := rfl
@[simp] theorem State.setDs_res3 (d : DeviceState) (s : State) : (s.setDs d).res3 = s.res3 := rfl
@[simp] theorem State.setDs_res4 (d : DeviceState) (s : State) : (s.setDs d).res4 = s.res4 := rfl
@[simp] theorem State.setDs_status (d : DeviceState) (s : State) : (s.setDs d).status = s.status := rfl
@[simp] theorem State.setDs_devstate (d : DeviceState) (s : State) : (s.setDs d).devstate = s.devstate := rfl
@[simp] theorem State.setDs_ds (d : DeviceState) (s : State) : (s.setDs d).ds = d := rfl
@[simp] theorem State.setDs_cfg (d : DeviceState) (s : State) : (s.setDs d).cfg = s.cfg := rfl
@[simp] theorem State.setDs_periph (d : DeviceState) (s : State) : (s.setDs d).periph = s.periph := rfl
@[simp] theorem State.setDs_log (d : DeviceState) (s : State) : (s.setDs d).log = s.log := rfl
@[simp] theorem State.setDs_port (d : DeviceState) (s : State) : (s.setDs d).port = s.port := rfl
@[simp] theorem State.setDs_host (d : DeviceState) (s : State) : (s.setDs d).host = s.host := rfl

@[simp] theorem State.setRes0_attached (v : Word) (s : State) : (s.setRes0 v).attached = s.attached := rfl
@[simp] theorem State.setRes0_fsm (v : Word) (s : State) : (s.setRes0 v).fsm = s.fsm := rfl
@[simp] theorem State.setRes0_cmdWord (v : Word) (s : State) : (s.setRes0 v).cmdWord = s.cmdWord := rfl
@[simp] theorem State.setRes0_opArg0 (v : Word) (s : State) : (s.setRes0 v).opArg0 = s.opArg0 := rfl
@[simp] theorem State.setRes0_opArg1 (v : Word) (s : State) : (s.setRes0 v).opArg1 = s.opArg1 := rfl
@[simp] theorem State.setRes0_planPos (v : Word) (s : State) : (s.setRes0 v).planPos = s.planPos := rfl
@[simp] theorem State.setRes0_wroteAny (v : Word) (s : State) : (s.setRes0 v).wroteAny = s.wroteAny := rfl
@[simp] theorem State.setRes0_arg0 (v : Word) (s : State) : (s.setRes0 v).arg0 = s.arg0 := rfl
@[simp] theorem State.setRes0_arg1 (v : Word) (s : State) : (s.setRes0 v).arg1 = s.arg1 := rfl
@[simp] theorem State.setRes0_res0 (v : Word) (s : State) : (s.setRes0 v).res0 = v := rfl
@[simp] theorem State.setRes0_res1 (v : Word) (s : State) : (s.setRes0 v).res1 = s.res1 := rfl
@[simp] theorem State.setRes0_res2 (v : Word) (s : State) : (s.setRes0 v).res2 = s.res2 := rfl
@[simp] theorem State.setRes0_res3 (v : Word) (s : State) : (s.setRes0 v).res3 = s.res3 := rfl
@[simp] theorem State.setRes0_res4 (v : Word) (s : State) : (s.setRes0 v).res4 = s.res4 := rfl
@[simp] theorem State.setRes0_status (v : Word) (s : State) : (s.setRes0 v).status = s.status := rfl
@[simp] theorem State.setRes0_devstate (v : Word) (s : State) : (s.setRes0 v).devstate = s.devstate := rfl
@[simp] theorem State.setRes0_ds (v : Word) (s : State) : (s.setRes0 v).ds = s.ds := rfl
@[simp] theorem State.setRes0_cfg (v : Word) (s : State) : (s.setRes0 v).cfg = s.cfg := rfl
@[simp] theorem State.setRes0_periph (v : Word) (s : State) : (s.setRes0 v).periph = s.periph := rfl
@[simp] theorem State.setRes0_log (v : Word) (s : State) : (s.setRes0 v).log = s.log := rfl
@[simp] theorem State.setRes0_port (v : Word) (s : State) : (s.setRes0 v).port = s.port := rfl
@[simp] theorem State.setRes0_host (v : Word) (s : State) : (s.setRes0 v).host = s.host := rfl

@[simp] theorem State.setRes_attached (v0 v1 v2 v3 v4 : Word) (s : State) : (s.setRes v0 v1 v2 v3 v4).attached = s.attached := rfl
@[simp] theorem State.setRes_fsm (v0 v1 v2 v3 v4 : Word) (s : State) : (s.setRes v0 v1 v2 v3 v4).fsm = s.fsm := rfl
@[simp] theorem State.setRes_cmdWord (v0 v1 v2 v3 v4 : Word) (s : State) : (s.setRes v0 v1 v2 v3 v4).cmdWord = s.cmdWord := rfl
@[simp] theorem State.setRes_opArg0 (v0 v1 v2 v3 v4 : Word) (s : State) : (s.setRes v0 v1 v2 v3 v4).opArg0 = s.opArg0 := rfl
@[simp] theorem State.setRes_opArg1 (v0 v1 v2 v3 v4 : Word) (s : State) : (s.setRes v0 v1 v2 v3 v4).opArg1 = s.opArg1 := rfl
@[simp] theorem State.setRes_planPos (v0 v1 v2 v3 v4 : Word) (s : State) : (s.setRes v0 v1 v2 v3 v4).planPos = s.planPos := rfl
@[simp] theorem State.setRes_wroteAny (v0 v1 v2 v3 v4 : Word) (s : State) : (s.setRes v0 v1 v2 v3 v4).wroteAny = s.wroteAny := rfl
@[simp] theorem State.setRes_arg0 (v0 v1 v2 v3 v4 : Word) (s : State) : (s.setRes v0 v1 v2 v3 v4).arg0 = s.arg0 := rfl
@[simp] theorem State.setRes_arg1 (v0 v1 v2 v3 v4 : Word) (s : State) : (s.setRes v0 v1 v2 v3 v4).arg1 = s.arg1 := rfl
@[simp] theorem State.setRes_res0 (v0 v1 v2 v3 v4 : Word) (s : State) : (s.setRes v0 v1 v2 v3 v4).res0 = v0 := rfl
@[simp] theorem State.setRes_res1 (v0 v1 v2 v3 v4 : Word) (s : State) : (s.setRes v0 v1 v2 v3 v4).res1 = v1 := rfl
@[simp] theorem State.setRes_res2 (v0 v1 v2 v3 v4 : Word) (s : State) : (s.setRes v0 v1 v2 v3 v4).res2 = v2 := rfl
@[simp] theorem State.setRes_res3 (v0 v1 v2 v3 v4 : Word) (s : State) : (s.setRes v0 v1 v2 v3 v4).res3 = v3 := rfl
@[simp] theorem State.setRes_res4 (v0 v1 v2 v3 v4 : Word) (s : State) : (s.setRes v0 v1 v2 v3 v4).res4 = v4 := rfl
@[simp] theorem State.setRes_status (v0 v1 v2 v3 v4 : Word) (s : State) : (s.setRes v0 v1 v2 v3 v4).status = s.status := rfl
@[simp] theorem State.setRes_devstate (v0 v1 v2 v3 v4 : Word) (s : State) : (s.setRes v0 v1 v2 v3 v4).devstate = s.devstate := rfl
@[simp] theorem State.setRes_ds (v0 v1 v2 v3 v4 : Word) (s : State) : (s.setRes v0 v1 v2 v3 v4).ds = s.ds := rfl
@[simp] theorem State.setRes_cfg (v0 v1 v2 v3 v4 : Word) (s : State) : (s.setRes v0 v1 v2 v3 v4).cfg = s.cfg := rfl
@[simp] theorem State.setRes_periph (v0 v1 v2 v3 v4 : Word) (s : State) : (s.setRes v0 v1 v2 v3 v4).periph = s.periph := rfl
@[simp] theorem State.setRes_log (v0 v1 v2 v3 v4 : Word) (s : State) : (s.setRes v0 v1 v2 v3 v4).log = s.log := rfl
@[simp] theorem State.setRes_port (v0 v1 v2 v3 v4 : Word) (s : State) : (s.setRes v0 v1 v2 v3 v4).port = s.port := rfl
@[simp] theorem State.setRes_host (v0 v1 v2 v3 v4 : Word) (s : State) : (s.setRes v0 v1 v2 v3 v4).host = s.host := rfl

@[simp] theorem State.setDegraded_attached (s : State) : s.setDegraded.attached = s.attached := rfl
@[simp] theorem State.setDegraded_fsm (s : State) : s.setDegraded.fsm = s.fsm := rfl
@[simp] theorem State.setDegraded_cmdWord (s : State) : s.setDegraded.cmdWord = s.cmdWord := rfl
@[simp] theorem State.setDegraded_opArg0 (s : State) : s.setDegraded.opArg0 = s.opArg0 := rfl
@[simp] theorem State.setDegraded_opArg1 (s : State) : s.setDegraded.opArg1 = s.opArg1 := rfl
@[simp] theorem State.setDegraded_planPos (s : State) : s.setDegraded.planPos = s.planPos := rfl
@[simp] theorem State.setDegraded_wroteAny (s : State) : s.setDegraded.wroteAny = s.wroteAny := rfl
@[simp] theorem State.setDegraded_arg0 (s : State) : s.setDegraded.arg0 = s.arg0 := rfl
@[simp] theorem State.setDegraded_arg1 (s : State) : s.setDegraded.arg1 = s.arg1 := rfl
@[simp] theorem State.setDegraded_res0 (s : State) : s.setDegraded.res0 = s.res0 := rfl
@[simp] theorem State.setDegraded_res1 (s : State) : s.setDegraded.res1 = s.res1 := rfl
@[simp] theorem State.setDegraded_res2 (s : State) : s.setDegraded.res2 = s.res2 := rfl
@[simp] theorem State.setDegraded_res3 (s : State) : s.setDegraded.res3 = s.res3 := rfl
@[simp] theorem State.setDegraded_res4 (s : State) : s.setDegraded.res4 = s.res4 := rfl
@[simp] theorem State.setDegraded_status (s : State) : s.setDegraded.status = { s.status with degraded := true } := rfl
@[simp] theorem State.setDegraded_devstate (s : State) : s.setDegraded.devstate = s.devstate := rfl
@[simp] theorem State.setDegraded_ds (s : State) : s.setDegraded.ds = s.ds := rfl
@[simp] theorem State.setDegraded_cfg (s : State) : s.setDegraded.cfg = s.cfg := rfl
@[simp] theorem State.setDegraded_periph (s : State) : s.setDegraded.periph = s.periph := rfl
@[simp] theorem State.setDegraded_log (s : State) : s.setDegraded.log = s.log := rfl
@[simp] theorem State.setDegraded_port (s : State) : s.setDegraded.port = s.port := rfl
@[simp] theorem State.setDegraded_host (s : State) : s.setDegraded.host = s.host := rfl

@[simp] theorem State.setMoves_attached (ms : List HostMove) (s : State) : (s.setMoves ms).attached = s.attached := rfl
@[simp] theorem State.setMoves_fsm (ms : List HostMove) (s : State) : (s.setMoves ms).fsm = s.fsm := rfl
@[simp] theorem State.setMoves_cmdWord (ms : List HostMove) (s : State) : (s.setMoves ms).cmdWord = s.cmdWord := rfl
@[simp] theorem State.setMoves_opArg0 (ms : List HostMove) (s : State) : (s.setMoves ms).opArg0 = s.opArg0 := rfl
@[simp] theorem State.setMoves_opArg1 (ms : List HostMove) (s : State) : (s.setMoves ms).opArg1 = s.opArg1 := rfl
@[simp] theorem State.setMoves_planPos (ms : List HostMove) (s : State) : (s.setMoves ms).planPos = s.planPos := rfl
@[simp] theorem State.setMoves_wroteAny (ms : List HostMove) (s : State) : (s.setMoves ms).wroteAny = s.wroteAny := rfl
@[simp] theorem State.setMoves_arg0 (ms : List HostMove) (s : State) : (s.setMoves ms).arg0 = s.arg0 := rfl
@[simp] theorem State.setMoves_arg1 (ms : List HostMove) (s : State) : (s.setMoves ms).arg1 = s.arg1 := rfl
@[simp] theorem State.setMoves_res0 (ms : List HostMove) (s : State) : (s.setMoves ms).res0 = s.res0 := rfl
@[simp] theorem State.setMoves_res1 (ms : List HostMove) (s : State) : (s.setMoves ms).res1 = s.res1 := rfl
@[simp] theorem State.setMoves_res2 (ms : List HostMove) (s : State) : (s.setMoves ms).res2 = s.res2 := rfl
@[simp] theorem State.setMoves_res3 (ms : List HostMove) (s : State) : (s.setMoves ms).res3 = s.res3 := rfl
@[simp] theorem State.setMoves_res4 (ms : List HostMove) (s : State) : (s.setMoves ms).res4 = s.res4 := rfl
@[simp] theorem State.setMoves_status (ms : List HostMove) (s : State) : (s.setMoves ms).status = s.status := rfl
@[simp] theorem State.setMoves_devstate (ms : List HostMove) (s : State) : (s.setMoves ms).devstate = s.devstate := rfl
@[simp] theorem State.setMoves_ds (ms : List HostMove) (s : State) : (s.setMoves ms).ds = s.ds := rfl
@[simp] theorem State.setMoves_cfg (ms : List HostMove) (s : State) : (s.setMoves ms).cfg = s.cfg := rfl
@[simp] theorem State.setMoves_periph (ms : List HostMove) (s : State) : (s.setMoves ms).periph = s.periph := rfl
@[simp] theorem State.setMoves_log (ms : List HostMove) (s : State) : (s.setMoves ms).log = s.log := rfl
@[simp] theorem State.setMoves_port (ms : List HostMove) (s : State) : (s.setMoves ms).port = s.port := rfl
@[simp] theorem State.setMoves_host (ms : List HostMove) (s : State) : (s.setMoves ms).host = { s.host with moves := ms } := rfl

@[simp] theorem accept_attached (w : Word) (s : State) : (accept w s).attached = s.attached := rfl
@[simp] theorem accept_fsm (w : Word) (s : State) : (accept w s).fsm = .busy := rfl
@[simp] theorem accept_cmdWord (w : Word) (s : State) : (accept w s).cmdWord = w := rfl
@[simp] theorem accept_opArg0 (w : Word) (s : State) : (accept w s).opArg0 = s.arg0 := rfl
@[simp] theorem accept_opArg1 (w : Word) (s : State) : (accept w s).opArg1 = s.arg1 := rfl
@[simp] theorem accept_planPos (w : Word) (s : State) : (accept w s).planPos = 0 := rfl
@[simp] theorem accept_wroteAny (w : Word) (s : State) : (accept w s).wroteAny = false := rfl
@[simp] theorem accept_arg0 (w : Word) (s : State) : (accept w s).arg0 = s.arg0 := rfl
@[simp] theorem accept_arg1 (w : Word) (s : State) : (accept w s).arg1 = s.arg1 := rfl
@[simp] theorem accept_res0 (w : Word) (s : State) : (accept w s).res0 = s.res0 := rfl
@[simp] theorem accept_res1 (w : Word) (s : State) : (accept w s).res1 = s.res1 := rfl
@[simp] theorem accept_res2 (w : Word) (s : State) : (accept w s).res2 = s.res2 := rfl
@[simp] theorem accept_res3 (w : Word) (s : State) : (accept w s).res3 = s.res3 := rfl
@[simp] theorem accept_res4 (w : Word) (s : State) : (accept w s).res4 = s.res4 := rfl
@[simp] theorem accept_status (w : Word) (s : State) : (accept w s).status = 
      { done := false, isPartial := false, degraded := false, overrun := false, report := .ok,
        lastOp := w.extractLsb' 0 8, failAddr := 0#8 } := rfl
@[simp] theorem accept_devstate (w : Word) (s : State) : (accept w s).devstate = s.devstate := rfl
@[simp] theorem accept_ds (w : Word) (s : State) : (accept w s).ds = s.ds := rfl
@[simp] theorem accept_cfg (w : Word) (s : State) : (accept w s).cfg = s.cfg := rfl
@[simp] theorem accept_periph (w : Word) (s : State) : (accept w s).periph = s.periph := rfl
@[simp] theorem accept_log (w : Word) (s : State) : (accept w s).log = s.log := rfl
@[simp] theorem accept_port (w : Word) (s : State) : (accept w s).port = s.port := rfl
@[simp] theorem accept_host (w : Word) (s : State) : (accept w s).host = s.host := rfl

@[simp] theorem endCommand_attached (e : Report) (addr : Byte) (s : State) : (endCommand e addr s).attached = s.attached := rfl
@[simp] theorem endCommand_fsm (e : Report) (addr : Byte) (s : State) : (endCommand e addr s).fsm = .idle := rfl
@[simp] theorem endCommand_cmdWord (e : Report) (addr : Byte) (s : State) : (endCommand e addr s).cmdWord = s.cmdWord := rfl
@[simp] theorem endCommand_opArg0 (e : Report) (addr : Byte) (s : State) : (endCommand e addr s).opArg0 = s.opArg0 := rfl
@[simp] theorem endCommand_opArg1 (e : Report) (addr : Byte) (s : State) : (endCommand e addr s).opArg1 = s.opArg1 := rfl
@[simp] theorem endCommand_planPos (e : Report) (addr : Byte) (s : State) : (endCommand e addr s).planPos = s.planPos := rfl
@[simp] theorem endCommand_wroteAny (e : Report) (addr : Byte) (s : State) : (endCommand e addr s).wroteAny = s.wroteAny := rfl
@[simp] theorem endCommand_arg0 (e : Report) (addr : Byte) (s : State) : (endCommand e addr s).arg0 = s.arg0 := rfl
@[simp] theorem endCommand_arg1 (e : Report) (addr : Byte) (s : State) : (endCommand e addr s).arg1 = s.arg1 := rfl
@[simp] theorem endCommand_res0 (e : Report) (addr : Byte) (s : State) : (endCommand e addr s).res0 = s.res0 := rfl
@[simp] theorem endCommand_res1 (e : Report) (addr : Byte) (s : State) : (endCommand e addr s).res1 = s.res1 := rfl
@[simp] theorem endCommand_res2 (e : Report) (addr : Byte) (s : State) : (endCommand e addr s).res2 = s.res2 := rfl
@[simp] theorem endCommand_res3 (e : Report) (addr : Byte) (s : State) : (endCommand e addr s).res3 = s.res3 := rfl
@[simp] theorem endCommand_res4 (e : Report) (addr : Byte) (s : State) : (endCommand e addr s).res4 = s.res4 := rfl
@[simp] theorem endCommand_status (e : Report) (addr : Byte) (s : State) : (endCommand e addr s).status = 
      { s.status with done := true, isPartial := e.isTransport && s.wroteAny, report := e, failAddr := addr } := rfl
@[simp] theorem endCommand_devstate (e : Report) (addr : Byte) (s : State) : (endCommand e addr s).devstate = s.ds.image := rfl
@[simp] theorem endCommand_ds (e : Report) (addr : Byte) (s : State) : (endCommand e addr s).ds = s.ds := rfl
@[simp] theorem endCommand_cfg (e : Report) (addr : Byte) (s : State) : (endCommand e addr s).cfg = s.cfg := rfl
@[simp] theorem endCommand_periph (e : Report) (addr : Byte) (s : State) : (endCommand e addr s).periph = s.periph := rfl
@[simp] theorem endCommand_log (e : Report) (addr : Byte) (s : State) : (endCommand e addr s).log = s.log := rfl
@[simp] theorem endCommand_port (e : Report) (addr : Byte) (s : State) : (endCommand e addr s).port = s.port := rfl
@[simp] theorem endCommand_host (e : Report) (addr : Byte) (s : State) : (endCommand e addr s).host = s.host := rfl

@[simp] theorem attachBlock_attached (c : Cfg) (s : State) : (attachBlock c s).attached = true := rfl
@[simp] theorem attachBlock_fsm (c : Cfg) (s : State) : (attachBlock c s).fsm = .idle := rfl
@[simp] theorem attachBlock_cmdWord (c : Cfg) (s : State) : (attachBlock c s).cmdWord = 0#32 := rfl
@[simp] theorem attachBlock_opArg0 (c : Cfg) (s : State) : (attachBlock c s).opArg0 = 0#32 := rfl
@[simp] theorem attachBlock_opArg1 (c : Cfg) (s : State) : (attachBlock c s).opArg1 = 0#32 := rfl
@[simp] theorem attachBlock_planPos (c : Cfg) (s : State) : (attachBlock c s).planPos = 0 := rfl
@[simp] theorem attachBlock_wroteAny (c : Cfg) (s : State) : (attachBlock c s).wroteAny = false := rfl
@[simp] theorem attachBlock_arg0 (c : Cfg) (s : State) : (attachBlock c s).arg0 = 0#32 := rfl
@[simp] theorem attachBlock_arg1 (c : Cfg) (s : State) : (attachBlock c s).arg1 = 0#32 := rfl
@[simp] theorem attachBlock_res0 (c : Cfg) (s : State) : (attachBlock c s).res0 = 0#32 := rfl
@[simp] theorem attachBlock_res1 (c : Cfg) (s : State) : (attachBlock c s).res1 = 0#32 := rfl
@[simp] theorem attachBlock_res2 (c : Cfg) (s : State) : (attachBlock c s).res2 = 0#32 := rfl
@[simp] theorem attachBlock_res3 (c : Cfg) (s : State) : (attachBlock c s).res3 = 0#32 := rfl
@[simp] theorem attachBlock_res4 (c : Cfg) (s : State) : (attachBlock c s).res4 = 0#32 := rfl
@[simp] theorem attachBlock_status (c : Cfg) (s : State) : (attachBlock c s).status = Status.atAttach := rfl
@[simp] theorem attachBlock_devstate (c : Cfg) (s : State) : (attachBlock c s).devstate = 0x0000000E#32 := rfl
@[simp] theorem attachBlock_ds (c : Cfg) (s : State) : (attachBlock c s).ds = DeviceState.atAttach := rfl
@[simp] theorem attachBlock_cfg (c : Cfg) (s : State) : (attachBlock c s).cfg = c := rfl
@[simp] theorem attachBlock_periph (c : Cfg) (s : State) : (attachBlock c s).periph = s.periph := rfl
@[simp] theorem attachBlock_log (c : Cfg) (s : State) : (attachBlock c s).log = s.log := rfl
@[simp] theorem attachBlock_port (c : Cfg) (s : State) : (attachBlock c s).port = s.port := rfl
@[simp] theorem attachBlock_host (c : Cfg) (s : State) : (attachBlock c s).host = s.host := rfl

end Sys2Proof.Machine
end

