-- ==== Sys2Proof/Laws/Busy.lean ====
section
/-! SUPPORT. What the host's accesses can do to a command that is BUSY: set OVERRUN, receive words it reads, and
nothing else (spec 10_state.md rule R24, 20_memory.md rule R62). -/

namespace Sys2Proof.Machine

/-- The state with what the host's accesses while BUSY can change. -/
def State.seenBy (ov : Bool) (rd : Word) (mw : List (List WinAccess)) (s : State) : State :=
  { s with status := { s.status with overrun := ov }, host := { s.host with rdata := rd, meanwhile := mw } }

/-- One access while BUSY. -/
theorem busyAccess_eq (a : WinAccess) (s : State) :
    ∃ ov rd, busyAccess a s = s.seenBy ov rd s.host.meanwhile ∧ (s.status.overrun = true → ov = true) := by
  cases a with
  | read r => exact ⟨s.status.overrun, windowRead r s, rfl, id⟩
  | write r v =>
    simp only [busyAccess]
    split
    · exact ⟨true, s.host.rdata, rfl, fun _ => rfl⟩
    · exact ⟨s.status.overrun, s.host.rdata, rfl, id⟩

/-- A list of accesses while BUSY. -/
theorem busyAccesses_eq (as : List WinAccess) (s : State) :
    ∃ ov rd, busyAccesses as s = s.seenBy ov rd s.host.meanwhile ∧ (s.status.overrun = true → ov = true) := by
  induction as generalizing s with
  | nil => exact ⟨s.status.overrun, s.host.rdata, rfl, id⟩
  | cons a as ih =>
    obtain ⟨ov, rd, h, hm⟩ := busyAccess_eq a s
    obtain ⟨ov', rd', h', hm'⟩ := ih (busyAccess a s)
    refine ⟨ov', rd', ?_, fun ho => hm' ?_⟩
    · rw [show busyAccesses (a :: as) s = busyAccesses as (busyAccess a s) from rfl, h', h]; rfl
    · rw [h]; exact hm ho

/-- A BUSY point, whatever the host does in it. -/
theorem busyPoint_eq (s : State) :
    ∃ ov rd mw, busyPoint s = s.seenBy ov rd mw ∧ (s.status.overrun = true → ov = true) := by
  unfold busyPoint
  split
  · exact ⟨s.status.overrun, s.host.rdata, s.host.meanwhile, rfl, id⟩
  · next as rest _ =>
    obtain ⟨ov, rd, h, hm⟩ := busyAccesses_eq as (s.setMeanwhile rest)
    exact ⟨ov, rd, rest, h, hm⟩

/-- A dropped write sets OVERRUN whatever follows it at the same point (R24). -/
theorem busyAccesses_overrun {as : List WinAccess} {r : WinReg} {v : Word} (h : WinAccess.write r v ∈ as)
    (hr : r.droppedWhileBusy = true) (s : State) : (busyAccesses as s).status.overrun = true := by
  induction as generalizing s with
  | nil => cases h
  | cons a as ih =>
    rcases List.mem_cons.1 h with rfl | h
    · obtain ⟨ov, rd, he, hm⟩ := busyAccesses_eq as (busyAccess (.write r v) s)
      have : (busyAccess (.write r v) s).status.overrun = true := by simp [busyAccess, hr]
      rw [show busyAccesses (.write r v :: as) s = busyAccesses as (busyAccess (.write r v) s) from rfl, he]
      exact hm this
    · exact ih h (busyAccess a s)

/-- OVERRUN is never cleared at a BUSY point (R25). -/
theorem busyPoint_overrun (s : State) (h : s.status.overrun = true) : (busyPoint s).status.overrun = true := by
  obtain ⟨ov, rd, mw, he, hm⟩ := busyPoint_eq s
  rw [he]; exact hm h

@[simp] theorem busyPoint_attached (s : State) : (busyPoint s).attached = s.attached := by
  obtain ⟨ov, rd, mw, h, -⟩ := busyPoint_eq s; rw [h]; rfl
@[simp] theorem busyPoint_fsm (s : State) : (busyPoint s).fsm = s.fsm := by
  obtain ⟨ov, rd, mw, h, -⟩ := busyPoint_eq s; rw [h]; rfl
@[simp] theorem busyPoint_cmdWord (s : State) : (busyPoint s).cmdWord = s.cmdWord := by
  obtain ⟨ov, rd, mw, h, -⟩ := busyPoint_eq s; rw [h]; rfl
@[simp] theorem busyPoint_opArg0 (s : State) : (busyPoint s).opArg0 = s.opArg0 := by
  obtain ⟨ov, rd, mw, h, -⟩ := busyPoint_eq s; rw [h]; rfl
@[simp] theorem busyPoint_opArg1 (s : State) : (busyPoint s).opArg1 = s.opArg1 := by
  obtain ⟨ov, rd, mw, h, -⟩ := busyPoint_eq s; rw [h]; rfl
@[simp] theorem busyPoint_planPos (s : State) : (busyPoint s).planPos = s.planPos := by
  obtain ⟨ov, rd, mw, h, -⟩ := busyPoint_eq s; rw [h]; rfl
@[simp] theorem busyPoint_wroteAny (s : State) : (busyPoint s).wroteAny = s.wroteAny := by
  obtain ⟨ov, rd, mw, h, -⟩ := busyPoint_eq s; rw [h]; rfl
@[simp] theorem busyPoint_arg0 (s : State) : (busyPoint s).arg0 = s.arg0 := by
  obtain ⟨ov, rd, mw, h, -⟩ := busyPoint_eq s; rw [h]; rfl
@[simp] theorem busyPoint_arg1 (s : State) : (busyPoint s).arg1 = s.arg1 := by
  obtain ⟨ov, rd, mw, h, -⟩ := busyPoint_eq s; rw [h]; rfl
@[simp] theorem busyPoint_res0 (s : State) : (busyPoint s).res0 = s.res0 := by
  obtain ⟨ov, rd, mw, h, -⟩ := busyPoint_eq s; rw [h]; rfl
@[simp] theorem busyPoint_res1 (s : State) : (busyPoint s).res1 = s.res1 := by
  obtain ⟨ov, rd, mw, h, -⟩ := busyPoint_eq s; rw [h]; rfl
@[simp] theorem busyPoint_res2 (s : State) : (busyPoint s).res2 = s.res2 := by
  obtain ⟨ov, rd, mw, h, -⟩ := busyPoint_eq s; rw [h]; rfl
@[simp] theorem busyPoint_res3 (s : State) : (busyPoint s).res3 = s.res3 := by
  obtain ⟨ov, rd, mw, h, -⟩ := busyPoint_eq s; rw [h]; rfl
@[simp] theorem busyPoint_res4 (s : State) : (busyPoint s).res4 = s.res4 := by
  obtain ⟨ov, rd, mw, h, -⟩ := busyPoint_eq s; rw [h]; rfl
@[simp] theorem busyPoint_status_done (s : State) : (busyPoint s).status.done = s.status.done := by
  obtain ⟨ov, rd, mw, h, -⟩ := busyPoint_eq s; rw [h]; rfl
@[simp] theorem busyPoint_status_isPartial (s : State) : (busyPoint s).status.isPartial = s.status.isPartial := by
  obtain ⟨ov, rd, mw, h, -⟩ := busyPoint_eq s; rw [h]; rfl
@[simp] theorem busyPoint_status_degraded (s : State) : (busyPoint s).status.degraded = s.status.degraded := by
  obtain ⟨ov, rd, mw, h, -⟩ := busyPoint_eq s; rw [h]; rfl
@[simp] theorem busyPoint_status_report (s : State) : (busyPoint s).status.report = s.status.report := by
  obtain ⟨ov, rd, mw, h, -⟩ := busyPoint_eq s; rw [h]; rfl
@[simp] theorem busyPoint_status_lastOp (s : State) : (busyPoint s).status.lastOp = s.status.lastOp := by
  obtain ⟨ov, rd, mw, h, -⟩ := busyPoint_eq s; rw [h]; rfl
@[simp] theorem busyPoint_status_failAddr (s : State) : (busyPoint s).status.failAddr = s.status.failAddr := by
  obtain ⟨ov, rd, mw, h, -⟩ := busyPoint_eq s; rw [h]; rfl
@[simp] theorem busyPoint_devstate (s : State) : (busyPoint s).devstate = s.devstate := by
  obtain ⟨ov, rd, mw, h, -⟩ := busyPoint_eq s; rw [h]; rfl
@[simp] theorem busyPoint_ds (s : State) : (busyPoint s).ds = s.ds := by
  obtain ⟨ov, rd, mw, h, -⟩ := busyPoint_eq s; rw [h]; rfl
@[simp] theorem busyPoint_cfg (s : State) : (busyPoint s).cfg = s.cfg := by
  obtain ⟨ov, rd, mw, h, -⟩ := busyPoint_eq s; rw [h]; rfl
@[simp] theorem busyPoint_periph (s : State) : (busyPoint s).periph = s.periph := by
  obtain ⟨ov, rd, mw, h, -⟩ := busyPoint_eq s; rw [h]; rfl
@[simp] theorem busyPoint_log (s : State) : (busyPoint s).log = s.log := by
  obtain ⟨ov, rd, mw, h, -⟩ := busyPoint_eq s; rw [h]; rfl
@[simp] theorem busyPoint_port (s : State) : (busyPoint s).port = s.port := by
  obtain ⟨ov, rd, mw, h, -⟩ := busyPoint_eq s; rw [h]; rfl
@[simp] theorem busyPoint_host_departs (s : State) : (busyPoint s).host.departs = s.host.departs := by
  obtain ⟨ov, rd, mw, h, -⟩ := busyPoint_eq s; rw [h]; rfl
@[simp] theorem busyPoint_host_moves (s : State) : (busyPoint s).host.moves = s.host.moves := by
  obtain ⟨ov, rd, mw, h, -⟩ := busyPoint_eq s; rw [h]; rfl

end Sys2Proof.Machine
end

