-- ==== Sys2Proof/Laws/Memory.lean ====
section
/-! SUPPORT. The laws of the peripheral's register file: a read after a write, and that a write keeps the canonical
form. -/

namespace Sys2Proof.Machine

/-! The cells. -/

/-- What is listed after an insertion. -/
theorem Memory.find_insert (m : Memory) (a b : Nat) (v : Byte) :
    (m.insert a v).find b = if b = a then some v else m.find b := by
  induction m with
  | nil => simp [Memory.insert, Memory.find]
  | cons c rest ih =>
    obtain ⟨x, w⟩ := c
    simp only [Memory.insert]
    split
    · simp [Memory.find]
    · split
      · next hx => subst hx; simp only [Memory.find]; split <;> rfl
      · next hx =>
        simp only [Memory.find, ih]
        by_cases hb : b = x
        · subst hb; simp [Ne.symm hx]
        · simp [hb]

/-- What is listed after an erasure. -/
theorem Memory.find_erase (m : Memory) (a b : Nat) : (m.erase a).find b = if b = a then none else m.find b := by
  induction m with
  | nil => simp [Memory.erase, Memory.find]
  | cons c rest ih =>
    obtain ⟨x, w⟩ := c
    simp only [Memory.erase] at ih ⊢
    rw [List.filter_cons]
    by_cases hx : x = a
    · subst hx
      simp only [ne_eq, not_true, decide_false, Bool.false_eq_true, if_false, ih, Memory.find]
      split <;> rfl
    · simp only [ne_eq, hx, not_false_iff, decide_true, if_true, Memory.find, ih]
      by_cases hb : b = x
      · subst hb; simp [hx]
      · simp [hb]

/-- The canonical form, with its two parts apart. -/
theorem Memory.wf_iff (init : Vector Byte 256) (m : Memory) : Memory.wf init m = true ↔
    m.Pairwise (fun x y => x.1 < y.1) ∧ ∀ c ∈ m, c.1 < 256 ∧ init[c.1]? ≠ some c.2 := by
  simp [Memory.wf, List.all_eq_true]

/-- The cells an insertion lists: the one inserted and those that were listed. -/
theorem Memory.mem_insert (m : Memory) (a : Nat) (v : Byte) (c : Host.Cell) (h : c ∈ m.insert a v) :
    c = (a, v) ∨ c ∈ m := by
  induction m with
  | nil => simpa [Memory.insert] using h
  | cons d rest ih =>
    obtain ⟨b, w⟩ := d
    simp only [Memory.insert] at h
    split at h
    · simpa using h
    · split at h
      · rcases List.mem_cons.1 h with h | h
        · exact .inl h
        · exact .inr (List.mem_cons_of_mem _ h)
      · rcases List.mem_cons.1 h with h | h
        · exact .inr (h ▸ List.mem_cons_self)
        · exact (ih h).imp id (List.mem_cons_of_mem _)

/-- An insertion keeps the indices rising. -/
theorem Memory.pairwise_insert (m : Memory) (a : Nat) (v : Byte) (h : m.Pairwise fun x y => x.1 < y.1) :
    (m.insert a v).Pairwise fun x y => x.1 < y.1 := by
  induction m with
  | nil => simp [Memory.insert]
  | cons d rest ih =>
    obtain ⟨b, w⟩ := d
    obtain ⟨hb, hr⟩ := List.pairwise_cons.1 h
    simp only [Memory.insert]
    split
    · next hab =>
      refine List.pairwise_cons.2 ⟨fun y hy => ?_, h⟩
      rcases List.mem_cons.1 hy with rfl | hy
      · exact hab
      · exact lt_trans hab (hb y hy)
    · split
      · next hab => exact List.pairwise_cons.2 ⟨fun y hy => hab ▸ hb y hy, hr⟩
      · next h1 h2 =>
        refine List.pairwise_cons.2 ⟨fun y hy => ?_, ih hr⟩
        rcases mem_insert rest a v y hy with rfl | hy
        · exact lt_of_le_of_ne (Nat.le_of_not_lt h1) (Ne.symm h2)
        · exact hb y hy

/-- An insertion of a byte that an unlisted register does not read as keeps the canonical form. -/
theorem Memory.wf_insert {init : Vector Byte 256} {m : Memory} (a v : Byte) (h : Memory.wf init m = true)
    (hv : init[a.toNat]? ≠ some v) : Memory.wf init (m.insert a.toNat v) = true := by
  rw [wf_iff] at h ⊢
  refine ⟨pairwise_insert m _ v h.1, fun c hc => ?_⟩
  rcases mem_insert m _ v c hc with rfl | hc
  · exact ⟨a.isLt, hv⟩
  · exact h.2 c hc

/-- An erasure keeps the canonical form. -/
theorem Memory.wf_erase {init : Vector Byte 256} {m : Memory} (a : Nat) (h : Memory.wf init m = true) :
    Memory.wf init (m.erase a) = true := by
  rw [wf_iff] at h ⊢
  exact ⟨h.1.sublist List.filter_sublist, fun c hc => h.2 c (List.mem_of_mem_filter hc)⟩

/-! The register file. -/

/-- `PERIPH_INIT` stays as it is (R10). -/
@[simp] theorem Peripheral.write_init (p : Peripheral) (a v : Byte) : (p.write a v).init = p.init := rfl

/-- Reading after a write: the register written holds the byte, and every other register is left alone. -/
theorem Peripheral.read_write (p : Peripheral) (a b v : Byte) :
    (p.write a v).read b = if b = a then v else p.read b := by
  have hn : (b.toNat = a.toNat) = (b = a) := propext BitVec.toNat_inj
  unfold Peripheral.read Peripheral.write
  by_cases hv : v = p.unlisted a
  · simp only [if_pos hv, Memory.find_erase, hn]
    split
    · next hb => subst hb; exact hv.symm
    · rfl
  · simp only [if_neg hv, Memory.find_insert, hn]
    split <;> rfl

/-- A register reads back the byte written to it. -/
theorem Peripheral.read_write_same (p : Peripheral) (a v : Byte) : (p.write a v).read a = v := by
  rw [read_write, if_pos rfl]

/-- A write leaves every other register alone. -/
theorem Peripheral.read_write_other (p : Peripheral) {a b : Byte} (v : Byte) (h : b ≠ a) :
    (p.write a v).read b = p.read b := by rw [read_write, if_neg h]

/-- A write keeps the canonical form. -/
theorem Peripheral.wf_write (p : Peripheral) (a v : Byte) (h : p.wf = true) : (p.write a v).wf = true := by
  show Memory.wf p.init (if v = p.unlisted a then p.cells.erase a.toNat else p.cells.insert a.toNat v) = true
  split
  · exact Memory.wf_erase _ h
  · next hv =>
    refine Memory.wf_insert a v h fun hs => hv ?_
    rw [Vector.getElem?_eq_getElem a.isLt] at hs
    exact (Option.some.inj hs).symm

/-- The register file after attach from reset has the canonical form. -/
theorem State.reset_periph_wf : State.reset.periph.wf = true := rfl

end Sys2Proof.Machine
end

