-- ==== Sys2Proof/Laws/Port.lean ====
section
/-! SUPPORT. What a plan can do. `Effect` says everything a sequence of port transactions can change; `PlanSpec` adds how
it ends; the lemmas give both once for each shared operation (spec 20_memory.md rules R64 to R66, 41_control_registry.md
rules R141, R142, 60_exceptions.md rule R248). -/

namespace Sys2Proof.Machine

/-! The port's answers. -/

/-- The answers left after one is used. -/
@[simp] theorem State.useAnswer_answerAt (s : State) (k : Nat) : s.useAnswer.answerAt k = s.answerAt (k + 1) := by
  simp [State.answerAt, Nat.add_assoc, Nat.add_comm 1 k]

/-- The answers depend on the port alone. -/
theorem State.answerAt_congr {s t : State} (h : t.port = s.port) (k : Nat) : t.answerAt k = s.answerAt k := by
  simp [State.answerAt, h]

@[simp] theorem busyPoint_answerAt (s : State) (k : Nat) : (busyPoint s).answerAt k = s.answerAt k :=
  State.answerAt_congr (busyPoint_port s) k

@[simp] theorem State.issued_answerAt (e : PortEvent) (s : State) (k : Nat) : (s.issued e).answerAt k = s.answerAt k := rfl

@[simp] theorem State.setPeriph_answerAt (a v : Byte) (s : State) (k : Nat) :
    (s.setPeriph a v).answerAt k = s.answerAt k := rfl

@[simp] theorem State.setWroteAny_answerAt (s : State) (k : Nat) : s.setWroteAny.answerAt k = s.answerAt k := rfl

@[simp] theorem State.setDs_answerAt (d : DeviceState) (s : State) (k : Nat) : (s.setDs d).answerAt k = s.answerAt k := rfl

@[simp] theorem endCommand_answerAt (e : Report) (addr : Byte) (s : State) (k : Nat) :
    (endCommand e addr s).answerAt k = s.answerAt k := rfl

@[simp] theorem State.setRes0_answerAt (v : Word) (s : State) (k : Nat) : (s.setRes0 v).answerAt k = s.answerAt k := rfl

/-! What becomes of the transactions. -/

/-- The transactions left after one is issued. -/
@[simp] theorem State.useAnswer_outcomeAt (s : State) (k : Nat) : s.useAnswer.outcomeAt k = s.outcomeAt (k + 1) := by
  simp [State.outcomeAt]

/-- What becomes of the transactions depends on the port and on the host's detaches alone. -/
theorem State.outcomeAt_congr {s t : State} (h : t.port = s.port) (hd : t.host.departs = s.host.departs) (k : Nat) :
    t.outcomeAt k = s.outcomeAt k := by
  simp [State.outcomeAt, hd, State.answerAt_congr h]

@[simp] theorem busyPoint_outcomeAt (s : State) (k : Nat) : (busyPoint s).outcomeAt k = s.outcomeAt k :=
  State.outcomeAt_congr (busyPoint_port s) (busyPoint_host_departs s) k

@[simp] theorem State.issued_outcomeAt (e : PortEvent) (s : State) (k : Nat) :
    (s.issued e).outcomeAt k = s.outcomeAt k := rfl

@[simp] theorem State.setPeriph_outcomeAt (a v : Byte) (s : State) (k : Nat) :
    (s.setPeriph a v).outcomeAt k = s.outcomeAt k := rfl

@[simp] theorem State.setWroteAny_outcomeAt (s : State) (k : Nat) : s.setWroteAny.outcomeAt k = s.outcomeAt k := rfl

@[simp] theorem State.setDs_outcomeAt (d : DeviceState) (s : State) (k : Nat) :
    (s.setDs d).outcomeAt k = s.outcomeAt k := rfl

@[simp] theorem endCommand_outcomeAt (e : Report) (addr : Byte) (s : State) (k : Nat) :
    (endCommand e addr s).outcomeAt k = s.outcomeAt k := rfl

@[simp] theorem State.setRes0_outcomeAt (v : Word) (s : State) (k : Nat) :
    (s.setRes0 v).outcomeAt k = s.outcomeAt k := rfl

/-! The two transactions when the port serves them. -/

/-- The state after a read that returned `b`. -/
def State.afterRead (a b : Byte) (s : State) : State := (busyPoint s.useAnswer).issued (.readOk a b)

/-- The state after a write that succeeded. -/
def State.afterWrite (a v : Byte) (s : State) : State :=
  (((busyPoint s.useAnswer).setPeriph a v).setWroteAny).issued (.writeOk a v)

theorem memRead_ok {a : Byte} {s : State} (h : s.outcomeAt 0 = some .ok) :
    memRead a s = .done (s.byteRead 0 a) (s.afterRead a (s.byteRead 0 a)) := by
  simp [memRead, h, State.afterRead, State.byteRead]

theorem memWrite_ok {a v : Byte} {s : State} (h : s.outcomeAt 0 = some .ok) :
    memWrite a v s = .done () (s.afterWrite a v) := by
  simp [memWrite, h, State.afterWrite]

theorem memRead_failed {a : Byte} {s : State} (h : s.outcomeAt 0 = some .failed) :
    memRead a s = .raised .transportRead a ((busyPoint s.useAnswer).issued (.readFailed a)) := by
  simp [memRead, h]

theorem memWrite_failed {a v : Byte} {s : State} (h : s.outcomeAt 0 = some .failed) :
    memWrite a v s = .raised .transportWrite a
      (((busyPoint s.useAnswer).setPeriph a (s.answerAt 0).byte).issued (.writeFailed a v)) := by
  simp [memWrite, h]

@[simp] theorem State.afterRead_answerAt (a b : Byte) (s : State) (k : Nat) :
    (s.afterRead a b).answerAt k = s.answerAt (k + 1) := by simp [State.afterRead]

@[simp] theorem State.afterWrite_answerAt (a v : Byte) (s : State) (k : Nat) :
    (s.afterWrite a v).answerAt k = s.answerAt (k + 1) := by simp [State.afterWrite]

@[simp] theorem State.afterRead_outcomeAt (a b : Byte) (s : State) (k : Nat) :
    (s.afterRead a b).outcomeAt k = s.outcomeAt (k + 1) := by simp [State.afterRead]

@[simp] theorem State.afterWrite_outcomeAt (a v : Byte) (s : State) (k : Nat) :
    (s.afterWrite a v).outcomeAt k = s.outcomeAt (k + 1) := by simp [State.afterWrite]

/-! The fields after each. -/

@[simp] theorem State.afterRead_attached (a b : Byte) (s : State) :
    (s.afterRead a b).attached = s.attached := by simp [State.afterRead]
@[simp] theorem State.afterRead_fsm (a b : Byte) (s : State) :
    (s.afterRead a b).fsm = s.fsm := by simp [State.afterRead]
@[simp] theorem State.afterRead_cmdWord (a b : Byte) (s : State) :
    (s.afterRead a b).cmdWord = s.cmdWord := by simp [State.afterRead]
@[simp] theorem State.afterRead_opArg0 (a b : Byte) (s : State) :
    (s.afterRead a b).opArg0 = s.opArg0 := by simp [State.afterRead]
@[simp] theorem State.afterRead_opArg1 (a b : Byte) (s : State) :
    (s.afterRead a b).opArg1 = s.opArg1 := by simp [State.afterRead]
@[simp] theorem State.afterRead_planPos (a b : Byte) (s : State) :
    (s.afterRead a b).planPos = s.planPos + 1 := by simp [State.afterRead]
@[simp] theorem State.afterRead_wroteAny (a b : Byte) (s : State) :
    (s.afterRead a b).wroteAny = s.wroteAny := by simp [State.afterRead]
@[simp] theorem State.afterRead_arg0 (a b : Byte) (s : State) :
    (s.afterRead a b).arg0 = s.arg0 := by simp [State.afterRead]
@[simp] theorem State.afterRead_arg1 (a b : Byte) (s : State) :
    (s.afterRead a b).arg1 = s.arg1 := by simp [State.afterRead]
@[simp] theorem State.afterRead_res0 (a b : Byte) (s : State) :
    (s.afterRead a b).res0 = s.res0 := by simp [State.afterRead]
@[simp] theorem State.afterRead_res1 (a b : Byte) (s : State) :
    (s.afterRead a b).res1 = s.res1 := by simp [State.afterRead]
@[simp] theorem State.afterRead_res2 (a b : Byte) (s : State) :
    (s.afterRead a b).res2 = s.res2 := by simp [State.afterRead]
@[simp] theorem State.afterRead_res3 (a b : Byte) (s : State) :
    (s.afterRead a b).res3 = s.res3 := by simp [State.afterRead]
@[simp] theorem State.afterRead_res4 (a b : Byte) (s : State) :
    (s.afterRead a b).res4 = s.res4 := by simp [State.afterRead]
@[simp] theorem State.afterRead_status_done (a b : Byte) (s : State) :
    (s.afterRead a b).status.done = s.status.done := by simp [State.afterRead]
@[simp] theorem State.afterRead_status_isPartial (a b : Byte) (s : State) :
    (s.afterRead a b).status.isPartial = s.status.isPartial := by simp [State.afterRead]
@[simp] theorem State.afterRead_status_degraded (a b : Byte) (s : State) :
    (s.afterRead a b).status.degraded = s.status.degraded := by simp [State.afterRead]
@[simp] theorem State.afterRead_status_report (a b : Byte) (s : State) :
    (s.afterRead a b).status.report = s.status.report := by simp [State.afterRead]
@[simp] theorem State.afterRead_status_lastOp (a b : Byte) (s : State) :
    (s.afterRead a b).status.lastOp = s.status.lastOp := by simp [State.afterRead]
@[simp] theorem State.afterRead_status_failAddr (a b : Byte) (s : State) :
    (s.afterRead a b).status.failAddr = s.status.failAddr := by simp [State.afterRead]
@[simp] theorem State.afterRead_devstate (a b : Byte) (s : State) :
    (s.afterRead a b).devstate = s.devstate := by simp [State.afterRead]
@[simp] theorem State.afterRead_ds (a b : Byte) (s : State) :
    (s.afterRead a b).ds = s.ds := by simp [State.afterRead]
@[simp] theorem State.afterRead_cfg (a b : Byte) (s : State) :
    (s.afterRead a b).cfg = s.cfg := by simp [State.afterRead]
@[simp] theorem State.afterRead_periph (a b : Byte) (s : State) :
    (s.afterRead a b).periph = s.periph := by simp [State.afterRead]
@[simp] theorem State.afterRead_log (a b : Byte) (s : State) :
    (s.afterRead a b).log = s.log ++ [.readOk a b] := by simp [State.afterRead]
@[simp] theorem State.afterRead_port (a b : Byte) (s : State) :
    (s.afterRead a b).port = { answers := s.port.answers.tail, drawn := s.port.drawn + 1 } := by simp [State.afterRead]
@[simp] theorem State.afterRead_host_moves (a b : Byte) (s : State) :
    (s.afterRead a b).host.moves = s.host.moves := by simp [State.afterRead]
@[simp] theorem State.afterWrite_attached (a v : Byte) (s : State) :
    (s.afterWrite a v).attached = s.attached := by simp [State.afterWrite]
@[simp] theorem State.afterWrite_fsm (a v : Byte) (s : State) :
    (s.afterWrite a v).fsm = s.fsm := by simp [State.afterWrite]
@[simp] theorem State.afterWrite_cmdWord (a v : Byte) (s : State) :
    (s.afterWrite a v).cmdWord = s.cmdWord := by simp [State.afterWrite]
@[simp] theorem State.afterWrite_opArg0 (a v : Byte) (s : State) :
    (s.afterWrite a v).opArg0 = s.opArg0 := by simp [State.afterWrite]
@[simp] theorem State.afterWrite_opArg1 (a v : Byte) (s : State) :
    (s.afterWrite a v).opArg1 = s.opArg1 := by simp [State.afterWrite]
@[simp] theorem State.afterWrite_planPos (a v : Byte) (s : State) :
    (s.afterWrite a v).planPos = s.planPos + 1 := by simp [State.afterWrite]
@[simp] theorem State.afterWrite_wroteAny (a v : Byte) (s : State) :
    (s.afterWrite a v).wroteAny = true := by simp [State.afterWrite]
@[simp] theorem State.afterWrite_arg0 (a v : Byte) (s : State) :
    (s.afterWrite a v).arg0 = s.arg0 := by simp [State.afterWrite]
@[simp] theorem State.afterWrite_arg1 (a v : Byte) (s : State) :
    (s.afterWrite a v).arg1 = s.arg1 := by simp [State.afterWrite]
@[simp] theorem State.afterWrite_res0 (a v : Byte) (s : State) :
    (s.afterWrite a v).res0 = s.res0 := by simp [State.afterWrite]
@[simp] theorem State.afterWrite_res1 (a v : Byte) (s : State) :
    (s.afterWrite a v).res1 = s.res1 := by simp [State.afterWrite]
@[simp] theorem State.afterWrite_res2 (a v : Byte) (s : State) :
    (s.afterWrite a v).res2 = s.res2 := by simp [State.afterWrite]
@[simp] theorem State.afterWrite_res3 (a v : Byte) (s : State) :
    (s.afterWrite a v).res3 = s.res3 := by simp [State.afterWrite]
@[simp] theorem State.afterWrite_res4 (a v : Byte) (s : State) :
    (s.afterWrite a v).res4 = s.res4 := by simp [State.afterWrite]
@[simp] theorem State.afterWrite_status_done (a v : Byte) (s : State) :
    (s.afterWrite a v).status.done = s.status.done := by simp [State.afterWrite]
@[simp] theorem State.afterWrite_status_isPartial (a v : Byte) (s : State) :
    (s.afterWrite a v).status.isPartial = s.status.isPartial := by simp [State.afterWrite]
@[simp] theorem State.afterWrite_status_degraded (a v : Byte) (s : State) :
    (s.afterWrite a v).status.degraded = s.status.degraded := by simp [State.afterWrite]
@[simp] theorem State.afterWrite_status_report (a v : Byte) (s : State) :
    (s.afterWrite a v).status.report = s.status.report := by simp [State.afterWrite]
@[simp] theorem State.afterWrite_status_lastOp (a v : Byte) (s : State) :
    (s.afterWrite a v).status.lastOp = s.status.lastOp := by simp [State.afterWrite]
@[simp] theorem State.afterWrite_status_failAddr (a v : Byte) (s : State) :
    (s.afterWrite a v).status.failAddr = s.status.failAddr := by simp [State.afterWrite]
@[simp] theorem State.afterWrite_devstate (a v : Byte) (s : State) :
    (s.afterWrite a v).devstate = s.devstate := by simp [State.afterWrite]
@[simp] theorem State.afterWrite_ds (a v : Byte) (s : State) :
    (s.afterWrite a v).ds = s.ds := by simp [State.afterWrite]
@[simp] theorem State.afterWrite_cfg (a v : Byte) (s : State) :
    (s.afterWrite a v).cfg = s.cfg := by simp [State.afterWrite]
@[simp] theorem State.afterWrite_periph (a v : Byte) (s : State) :
    (s.afterWrite a v).periph = s.periph.write a v := by simp [State.afterWrite]
@[simp] theorem State.afterWrite_log (a v : Byte) (s : State) :
    (s.afterWrite a v).log = s.log ++ [.writeOk a v] := by simp [State.afterWrite]
@[simp] theorem State.afterWrite_port (a v : Byte) (s : State) :
    (s.afterWrite a v).port = { answers := s.port.answers.tail, drawn := s.port.drawn + 1 } := by simp [State.afterWrite]
@[simp] theorem State.afterWrite_host_moves (a v : Byte) (s : State) :
    (s.afterWrite a v).host.moves = s.host.moves := by simp [State.afterWrite]

/-! What a sequence of transactions can do. -/

/-- The register file holds what the log says was last written. -/
def State.logKept (s : State) : Prop := ∀ a v, lastWritten s.log a = some v → s.periph.read a = v

/-- Everything that at most `n` transactions, writing no register outside `regs`, can change from `s` to `t`; `new`
is what they added to the log. -/
structure Effect (regs : List Byte) (n : Nat) (new : List PortEvent) (s t : State) : Prop where
  attached : t.attached = s.attached
  fsm : t.fsm = s.fsm
  cmdWord : t.cmdWord = s.cmdWord
  opArg0 : t.opArg0 = s.opArg0
  opArg1 : t.opArg1 = s.opArg1
  arg0 : t.arg0 = s.arg0
  arg1 : t.arg1 = s.arg1
  res0 : t.res0 = s.res0
  res1 : t.res1 = s.res1
  res2 : t.res2 = s.res2
  res3 : t.res3 = s.res3
  res4 : t.res4 = s.res4
  status_done : t.status.done = s.status.done
  status_isPartial : t.status.isPartial = s.status.isPartial
  status_degraded : t.status.degraded = s.status.degraded
  status_report : t.status.report = s.status.report
  status_lastOp : t.status.lastOp = s.status.lastOp
  status_failAddr : t.status.failAddr = s.status.failAddr
  devstate : t.devstate = s.devstate
  ds : t.ds = s.ds
  cfg : t.cfg = s.cfg
  host_moves : t.host.moves = s.host.moves
  overrun : s.status.overrun = true → t.status.overrun = true
  log : t.log = s.log ++ new
  planPos : t.planPos = s.planPos + new.length
  bound : new.length ≤ n
  wroteAny : t.wroteAny = (s.wroteAny || new.any PortEvent.isWriteOk)
  writes : ∀ e ∈ new, ∀ a, e.writesTo a = true → a ∈ regs
  frame : SamePeriphBut regs s t
  applied : ∀ a : Byte, (∀ e ∈ new, e.isOk = true ∨ e.writesTo a = false) →
    some (t.periph.read a) = new.foldl (PortEvent.settles a) (some (s.periph.read a))
  wf : s.periph.wf = true → t.periph.wf = true
  kept : s.logKept → t.logKept
  answers : ∀ k, t.answerAt k = s.answerAt (k + new.length)
  outcomes : ∀ k, t.outcomeAt k = s.outcomeAt (k + new.length)

/-- No transaction changes nothing. -/
theorem Effect.refl (regs : List Byte) (s : State) : Effect regs 0 [] s s := by
  constructor <;> simp [SamePeriphBut]

/-- One sequence after another. -/
theorem Effect.trans {regs : List Byte} {n m : Nat} {l k : List PortEvent} {s t u : State}
    (h : Effect regs n l s t) (g : Effect regs m k t u) : Effect regs (n + m) (l ++ k) s u where
  attached := g.attached.trans h.attached
  fsm := g.fsm.trans h.fsm
  cmdWord := g.cmdWord.trans h.cmdWord
  opArg0 := g.opArg0.trans h.opArg0
  opArg1 := g.opArg1.trans h.opArg1
  arg0 := g.arg0.trans h.arg0
  arg1 := g.arg1.trans h.arg1
  res0 := g.res0.trans h.res0
  res1 := g.res1.trans h.res1
  res2 := g.res2.trans h.res2
  res3 := g.res3.trans h.res3
  res4 := g.res4.trans h.res4
  status_done := g.status_done.trans h.status_done
  status_isPartial := g.status_isPartial.trans h.status_isPartial
  status_degraded := g.status_degraded.trans h.status_degraded
  status_report := g.status_report.trans h.status_report
  status_lastOp := g.status_lastOp.trans h.status_lastOp
  status_failAddr := g.status_failAddr.trans h.status_failAddr
  devstate := g.devstate.trans h.devstate
  ds := g.ds.trans h.ds
  cfg := g.cfg.trans h.cfg
  host_moves := g.host_moves.trans h.host_moves
  overrun := fun x => g.overrun (h.overrun x)
  log := by rw [g.log, h.log, List.append_assoc]
  planPos := by rw [g.planPos, h.planPos, List.length_append, Nat.add_assoc]
  bound := by have := h.bound; have := g.bound; simp; omega
  wroteAny := by rw [g.wroteAny, h.wroteAny, List.any_append, Bool.or_assoc]
  writes := fun e he => (List.mem_append.1 he).elim (h.writes e) (g.writes e)
  frame := fun a ha => (g.frame a ha).trans (h.frame a ha)
  applied := fun a ha => by
    rw [List.foldl_append, ← h.applied a fun e he => ha e (List.mem_append_left _ he)]
    exact g.applied a fun e he => ha e (List.mem_append_right _ he)
  wf := fun x => g.wf (h.wf x)
  kept := fun x => g.kept (h.kept x)
  answers := fun k => by rw [g.answers, h.answers, List.length_append]; congr 1; omega
  outcomes := fun k => by rw [g.outcomes, h.outcomes, List.length_append]; congr 1; omega

/-- A wider claim. -/
theorem Effect.mono {regs regs' : List Byte} {n m : Nat} {l : List PortEvent} {s t : State} (h : Effect regs n l s t)
    (hr : ∀ r ∈ regs, r ∈ regs') (hn : n ≤ m) : Effect regs' m l s t :=
  { h with
    bound := le_trans h.bound hn
    writes := fun e he a ha => hr a (h.writes e he a ha)
    frame := fun a ha => h.frame a fun hm => ha (hr a hm) }

/-- The log's last write to a register, one transaction on. -/
theorem lastWritten_snoc (l : List PortEvent) (e : PortEvent) (a : Byte) :
    lastWritten (l ++ [e]) a = PortEvent.settles a (lastWritten l a) e := by simp [lastWritten]

/-- A transaction that is no write. -/
theorem Effect.read (e : PortEvent) (he : e.isWriteOk = false) (hw : ∀ b, e.writesTo b = false)
    (hs : ∀ b k, PortEvent.settles b k e = k) (s : State) :
    Effect [] 1 [e] s ((busyPoint s.useAnswer).issued e) where
  attached := by simp
  fsm := by simp
  cmdWord := by simp
  opArg0 := by simp
  opArg1 := by simp
  arg0 := by simp
  arg1 := by simp
  res0 := by simp
  res1 := by simp
  res2 := by simp
  res3 := by simp
  res4 := by simp
  status_done := by simp
  status_isPartial := by simp
  status_degraded := by simp
  status_report := by simp
  status_lastOp := by simp
  status_failAddr := by simp
  devstate := by simp
  ds := by simp
  cfg := by simp
  host_moves := by simp
  overrun := fun h => busyPoint_overrun _ h
  log := by simp
  planPos := by simp
  bound := le_rfl
  wroteAny := by simp [he]
  writes := by simp [hw]
  frame := fun b _ => by simp
  applied := fun b _ => by simp [hs]
  wf := by simp
  kept := fun h b v hb => by
    simp only [State.issued_log, busyPoint_log, State.useAnswer_log, lastWritten_snoc, hs] at hb
    simpa using h b v hb
  answers := fun k => by simp
  outcomes := fun k => by simp

/-- A write, whatever byte it leaves, whose log entry does not claim another byte. -/
theorem Effect.write (a x : Byte) (e : PortEvent) (he : e.isWriteOk = false) (hw : ∀ b, e.writesTo b = true → b = a)
    (hs : ∀ b k v, PortEvent.settles b k e = some v → b ≠ a ∧ k = some v) (hn : e.isOk = false)
    (ha : e.writesTo a = true) (hi : ∀ b : Byte, b ≠ a → ∀ k, PortEvent.settles b k e = k) (s : State) :
    Effect [a] 1 [e] s (((busyPoint s.useAnswer).setPeriph a x).issued e) where
  attached := by simp
  fsm := by simp
  cmdWord := by simp
  opArg0 := by simp
  opArg1 := by simp
  arg0 := by simp
  arg1 := by simp
  res0 := by simp
  res1 := by simp
  res2 := by simp
  res3 := by simp
  res4 := by simp
  status_done := by simp
  status_isPartial := by simp
  status_degraded := by simp
  status_report := by simp
  status_lastOp := by simp
  status_failAddr := by simp
  devstate := by simp
  ds := by simp
  cfg := by simp
  host_moves := by simp
  overrun := fun h => busyPoint_overrun _ h
  log := by simp
  planPos := by simp
  bound := le_rfl
  wroteAny := by simp [he]
  writes := by simpa using hw
  frame := fun b hb => by simpa using Peripheral.read_write_other _ _ (by simpa using hb)
  applied := fun b hb => by
    rcases hb e (by simp) with h | h
    · exact absurd h (by simp [hn])
    · have hne : b ≠ a := fun hba => by simp [hba, ha] at h
      simp [Peripheral.read_write, hne, hi b hne]
  wf := fun h => Peripheral.wf_write _ _ _ (by simpa using h)
  kept := fun h b v hb => by
    simp only [State.issued_log, State.setPeriph_log, busyPoint_log, State.useAnswer_log, lastWritten_snoc] at hb
    obtain ⟨h1, h2⟩ := hs b _ v hb
    simpa [Peripheral.read_write, h1] using h b v h2
  answers := fun k => by simp
  outcomes := fun k => by simp

/-- A write that succeeded. -/
theorem Effect.writeOk (a v : Byte) (s : State) : Effect [a] 1 [.writeOk a v] s (s.afterWrite a v) where
  attached := by simp
  fsm := by simp
  cmdWord := by simp
  opArg0 := by simp
  opArg1 := by simp
  arg0 := by simp
  arg1 := by simp
  res0 := by simp
  res1 := by simp
  res2 := by simp
  res3 := by simp
  res4 := by simp
  status_done := by simp
  status_isPartial := by simp
  status_degraded := by simp
  status_report := by simp
  status_lastOp := by simp
  status_failAddr := by simp
  devstate := by simp
  ds := by simp
  cfg := by simp
  host_moves := by simp
  overrun := fun h => busyPoint_overrun _ h
  log := by simp
  planPos := by simp
  bound := le_rfl
  wroteAny := by simp [PortEvent.isWriteOk]
  writes := by simp [PortEvent.writesTo]
  frame := fun b hb => by simpa using Peripheral.read_write_other _ _ (by simpa using hb)
  applied := fun b _ => by
    simp only [State.afterWrite_periph, Peripheral.read_write, PortEvent.settles, List.foldl_cons, List.foldl_nil]
    split <;> rfl
  wf := fun h => by simpa using Peripheral.wf_write _ _ _ h
  kept := fun h b x hb => by
    simp only [State.afterWrite_log, lastWritten_snoc, PortEvent.settles] at hb
    simp only [State.afterWrite_periph, Peripheral.read_write]
    split at hb
    · next hba => simpa [hba] using hb
    · next hba => simpa [hba] using h b x hb
  answers := fun k => by simp
  outcomes := fun k => by simp

/-- A read that succeeded. -/
theorem Effect.readOk (a b : Byte) (s : State) : Effect [] 1 [.readOk a b] s (s.afterRead a b) :=
  .read _ rfl (fun _ => rfl) (fun _ _ => rfl) s

/-! How a plan ends. -/

/-- What a plan did from `s`, and how it ended: if it has a value, every transaction succeeded; if it raised an error,
its last transaction failed and all before it succeeded, and the report and address are that transaction's; if it
hangs, its last transaction is unanswered and all before it succeeded; if the host detached, every transaction succeeded
(R248, R242, R289, R272). -/
inductive PlanSpec {α : Type} (regs : List Byte) (n : Nat) (s : State) : PlanResult α → Prop where
  | done (a : α) (t : State) (new : List PortEvent) (h : Effect regs n new s t) (ok : ∀ e ∈ new, e.isOk = true) :
      PlanSpec regs n s (.done a t)
  | readFailed (addr : Byte) (t : State) (pre : List PortEvent) (h : Effect regs n (pre ++ [.readFailed addr]) s t)
      (ok : ∀ e ∈ pre, e.isOk = true) : PlanSpec regs n s (.raised .transportRead addr t)
  | writeFailed (addr v : Byte) (t : State) (pre : List PortEvent)
      (h : Effect regs n (pre ++ [.writeFailed addr v]) s t)
      (ok : ∀ e ∈ pre, e.isOk = true) : PlanSpec regs n s (.raised .transportWrite addr t)
  | hung (t : State) (pre : List PortEvent) (e : PortEvent) (h : Effect regs n (pre ++ [e]) s t)
      (ok : ∀ e ∈ pre, e.isOk = true) (he : e.isUnanswered = true) : PlanSpec regs n s (.stopped t)
  | left (t : State) (new : List PortEvent) (h : Effect regs n new s t) (ok : ∀ e ∈ new, e.isOk = true) :
      PlanSpec regs n s (.stopped t.leave)

theorem PlanSpec.mono {α : Type} {regs regs' : List Byte} {n m : Nat} {s : State} {r : PlanResult α}
    (h : PlanSpec regs n s r) (hr : ∀ r ∈ regs, r ∈ regs') (hn : n ≤ m) : PlanSpec regs' m s r := by
  cases h with
  | done a t new h ok => exact .done a t new (h.mono hr hn) ok
  | readFailed addr t pre h ok => exact .readFailed addr t pre (h.mono hr hn) ok
  | writeFailed addr v t pre h ok => exact .writeFailed addr v t pre (h.mono hr hn) ok
  | hung t pre e h ok he => exact .hung t pre e (h.mono hr hn) ok he
  | left t new h ok => exact .left t new (h.mono hr hn) ok

/-- A plan run after a prefix that succeeded. -/
theorem PlanSpec.after {α : Type} {regs : List Byte} {n m : Nat} {l : List PortEvent} {s t : State} {r : PlanResult α}
    (h : Effect regs n l s t) (ok : ∀ e ∈ l, e.isOk = true) (g : PlanSpec regs m t r) : PlanSpec regs (n + m) s r := by
  have both : ∀ {k : List PortEvent}, (∀ e ∈ k, e.isOk = true) → ∀ e ∈ l ++ k, e.isOk = true :=
    fun hk e he => (List.mem_append.1 he).elim (ok e) (hk e)
  cases g with
  | done a u new g gok => exact .done a u _ (h.trans g) (both gok)
  | readFailed addr u pre g gok =>
    exact .readFailed addr u (l ++ pre) (by rw [List.append_assoc]; exact h.trans g) (both gok)
  | writeFailed addr v u pre g gok =>
    exact .writeFailed addr v u (l ++ pre) (by rw [List.append_assoc]; exact h.trans g) (both gok)
  | hung u pre e g gok he =>
    exact .hung u (l ++ pre) e (by rw [List.append_assoc]; exact h.trans g) (both gok) he
  | left u new g gok => exact .left u _ (h.trans g) (both gok)

/-- One plan after another. -/
theorem PlanSpec.bind {α β : Type} {regs : List Byte} {n m : Nat} {p : Plan α} {f : α → Plan β} {s : State}
    (hp : PlanSpec regs n s (p s)) (hf : ∀ a t, PlanSpec regs m t (f a t)) :
    PlanSpec regs (n + m) s (planBind p f s) := by
  unfold planBind
  generalize p s = r at hp
  cases hp with
  | done a t new h ok => exact .after h ok (hf a t)
  | readFailed addr t pre h ok => exact .readFailed addr t pre (h.mono (fun _ => id) (Nat.le_add_right n m)) ok
  | writeFailed addr v t pre h ok => exact .writeFailed addr v t pre (h.mono (fun _ => id) (Nat.le_add_right n m)) ok
  | hung t pre e h ok he => exact .hung t pre e (h.mono (fun _ => id) (Nat.le_add_right n m)) ok he
  | left t new h ok => exact .left t new (h.mono (fun _ => id) (Nat.le_add_right n m)) ok

theorem PlanSpec.pure {α : Type} (regs : List Byte) (s : State) (a : α) : PlanSpec regs 0 s (planPure a s) :=
  .done a s [] (.refl regs s) (by simp)

theorem memRead_spec (regs : List Byte) (a : Byte) (s : State) : PlanSpec regs 1 s (memRead a s) := by
  have no : ∀ r ∈ ([] : List Byte), r ∈ regs := by simp
  cases h : s.outcomeAt 0 with
  | none =>
    simp only [memRead, h]
    exact .left s [] ((Effect.refl regs s).mono (fun _ => id) (Nat.zero_le _)) (by simp)
  | some o =>
  cases o with
  | ok =>
    rw [memRead_ok h]
    exact .done _ _ _ ((Effect.readOk a _ s).mono no le_rfl) (by simp [PortEvent.isOk])
  | failed =>
    rw [memRead_failed h]
    exact .readFailed a _ [] ((Effect.read _ rfl (fun _ => rfl) (fun _ _ => rfl) s).mono no le_rfl) (by simp)
  | never =>
    simp only [memRead, h]
    exact .hung _ [] (.readUnanswered a) ((Effect.read _ rfl (fun _ => rfl) (fun _ _ => rfl) s).mono no le_rfl)
      (by simp) rfl

theorem memWrite_spec (regs : List Byte) (a v : Byte) (ha : a ∈ regs) (s : State) :
    PlanSpec regs 1 s (memWrite a v s) := by
  have sub : ∀ r ∈ [a], r ∈ regs := by simpa using ha
  have clears : ∀ (e : PortEvent) (b : Byte) (k : Option Byte) (x : Byte),
      PortEvent.settles b k e = (if b = a then none else k) → PortEvent.settles b k e = some x →
        b ≠ a ∧ k = some x := by
    intro e b k x h1 h2
    rw [h1] at h2
    split at h2
    · cases h2
    · exact ⟨‹_›, h2⟩
  cases h : s.outcomeAt 0 with
  | none =>
    simp only [memWrite, h]
    exact .left s [] ((Effect.refl regs s).mono (fun _ => id) (Nat.zero_le _)) (by simp)
  | some o =>
  cases o with
  | ok =>
    rw [memWrite_ok h]
    exact .done _ _ _ ((Effect.writeOk a v s).mono sub le_rfl) (by simp [PortEvent.isOk])
  | failed =>
    rw [memWrite_failed h]
    refine .writeFailed a v _ []
      ((Effect.write a _ _ rfl (by simp [PortEvent.writesTo, eq_comm]) (fun b k x => clears _ b k x rfl) rfl
        (by simp [PortEvent.writesTo]) (fun b hb k => by simp [PortEvent.settles, hb]) s).mono sub le_rfl)
      (by simp)
  | never =>
    simp only [memWrite, h]
    refine .hung _ [] (.writeUnanswered a v)
      ((Effect.write a _ _ rfl (by simp [PortEvent.writesTo, eq_comm]) (fun b k x => clears _ b k x rfl) rfl
        (by simp [PortEvent.writesTo]) (fun b hb k => by simp [PortEvent.settles, hb]) s).mono sub le_rfl)
      (by simp) rfl

theorem fieldWrite_spec (regs : List Byte) (reg mask : Byte) (shift : Nat) (code : Byte) (hr : reg ∈ regs) (s : State) :
    PlanSpec regs 2 s (fieldWrite reg mask shift code s) := by
  unfold fieldWrite
  split
  · exact (memWrite_spec regs reg code hr s).mono (fun _ => id) (by omega)
  · exact .bind (n := 1) (m := 1) (memRead_spec regs reg s) fun b t => memWrite_spec regs reg _ hr t

theorem fieldRead_spec (regs : List Byte) (reg mask : Byte) (shift : Nat) (s : State) :
    PlanSpec regs 1 s (fieldRead reg mask shift s) :=
  .bind (n := 1) (m := 0) (memRead_spec regs reg s) fun _ t => .pure regs t _

/-- A field write when the port serves both transactions (R141). -/
theorem fieldWrite_ok {reg mask : Byte} {shift : Nat} {code : Byte} {s : State} (hm : mask ≠ 0xFF#8)
    (h : s.portServes 2) :
    fieldWrite reg mask shift code s = .done ()
      ((s.afterRead reg (s.byteRead 0 reg)).afterWrite reg (fieldByte mask shift code (s.byteRead 0 reg))) := by
  have h0 := h 0 (by omega)
  have h1 := h 1 (by omega)
  simp only [fieldWrite, hm, if_false, planBind, memRead_ok h0]
  rw [memWrite_ok (by simpa using h1)]

end Sys2Proof.Machine
end

