-- ==== Sys2Proof/Laws/Commands.lean ====
section
/-! SUPPORT. What each plan and each command can do, said once: the plans' `PlanSpec`, and `exec_run`, from which every
frame, every report and every invariant follows without unfolding a command (spec 60_exceptions.md rules R241, R245,
R248, 30_encoding.md rule R96). -/

namespace Sys2Proof.Machine

@[simp] theorem State.setDs_self (s : State) : s.setDs s.ds = s := rfl

/-! The plans. -/

theorem writeMute_spec (v : Bool) (s : State) : PlanSpec [10#8] 2 s (writeMute v s) :=
  fieldWrite_spec _ _ _ _ _ (by simp) s

theorem unmuteIfAllowed_spec (s : State) : PlanSpec [10#8] 2 s (unmuteIfAllowed s) := by
  unfold unmuteIfAllowed
  split
  · exact (PlanSpec.pure _ s ()).mono (fun _ => id) (by omega)
  · exact writeMute_spec false s

theorem applyMute_spec (s : State) : PlanSpec [10#8] 2 s (applyMute s) := writeMute_spec _ s

theorem streamStartPlan_spec (s : State) :
    PlanSpec [10#8] 2 (s.setDs { s.ds with streamMuted := false }) (streamStartPlan s) := unmuteIfAllowed_spec _

theorem streamStopPlan_spec (s : State) :
    PlanSpec [10#8] 2 (s.setDs { s.ds with streamMuted := true }) (streamStopPlan s) := by
  simp only [streamStopPlan]
  split
  · exact writeMute_spec true _
  · exact (PlanSpec.pure _ _ ()).mono (fun _ => id) (by omega)

theorem muteSetPlan_spec (s : State) :
    PlanSpec [10#8] 2 (s.setDs { s.ds with forceMute := true }) (muteSetPlan s) := applyMute_spec _

theorem muteClrPlan_spec (s : State) :
    PlanSpec [10#8] 2 (s.setDs { s.ds with forceMute := false }) (muteClrPlan s) := applyMute_spec _

theorem muteModePlan_spec (m : MuteMode) (s : State) :
    PlanSpec [10#8] 2 (s.setDs { s.ds with muteMode := m }) (muteModePlan m s) := applyMute_spec _

theorem fmtSpdifPlan_spec (s : State) : PlanSpec [10#8, 8#8, 17#8] 8 s (fmtSpdifPlan s) :=
  .bind (n := 2) (m := 6) ((writeMute_spec true s).mono (by simp) le_rfl) fun _ t =>
  .bind (n := 2) (m := 4) (fieldWrite_spec _ _ _ _ _ (by simp) t) fun _ t =>
  .bind (n := 2) (m := 2) (fieldWrite_spec _ _ _ _ _ (by simp) t) fun _ t =>
  (unmuteIfAllowed_spec t).mono (by simp) le_rfl

theorem volWrite_spec (i : Nat) (s : State) : PlanSpec [23#8, 22#8, 21#8, 20#8] 4 s (volWrite i s) :=
  .bind (n := 1) (m := 3) (memWrite_spec _ _ _ (by simp) s) fun _ t =>
  .bind (n := 1) (m := 2) (memWrite_spec _ _ _ (by simp) t) fun _ t =>
  .bind (n := 1) (m := 1) (memWrite_spec _ _ _ (by simp) t) fun _ t => memWrite_spec _ _ _ (by simp) t

theorem volRead_spec (s : State) : PlanSpec [] 4 s (volRead s) :=
  .bind (n := 1) (m := 3) (memRead_spec _ _ s) fun _ t =>
  .bind (n := 1) (m := 2) (memRead_spec _ _ t) fun _ t =>
  .bind (n := 1) (m := 1) (memRead_spec _ _ t) fun _ t =>
  .bind (n := 1) (m := 0) (memRead_spec _ _ t) fun _ t => .pure _ t _

/-- The number of transactions CTL.RD of a control issues at most (R160). -/
def readBound : Control → Nat
  | .volume => 4
  | .mute => 0
  | _ => 1

theorem readControl_spec (c : Control) (s : State) : PlanSpec [] (readBound c) s (readControl c s) := by
  cases c
  case volume => exact .bind (n := 4) (m := 0) (volRead_spec s) fun _ t => .pure _ t _
  case mute => exact .pure _ s _
  all_goals
    first
    | exact .bind (n := 1) (m := 0) (memRead_spec _ _ s) fun _ t => .pure _ t _
    | exact .bind (n := 1) (m := 0) (fieldRead_spec _ _ _ _ s) fun _ t => .pure _ t _

/-- The number of transactions CTL.WR of a control issues at most (R160). -/
def writeBound : Control → Nat
  | .volume => 4
  | .outputRemap | .spdifChannel => 1
  | _ => 2

/-- DeviceState as CTL.WR of a control leaves it (R158, R159). -/
def dsAfterWrite (c : Control) (v : Word) (d : DeviceState) : DeviceState :=
  match c with
  | .mute => { d with forceMute := decide (v = 1#32) }
  | _ => d

theorem writeControl_spec (c : Control) (v : Word) (s : State) :
    PlanSpec (controlRegisters c) (writeBound c) (s.setDs (dsAfterWrite c v s.ds)) (writeControl c v s) := by
  cases c
  case volume => exact volWrite_spec _ s
  case mute =>
    by_cases h : v = 1#32
    · simpa [writeControl, dsAfterWrite, h, controlRegisters, descriptor, writeBound] using muteSetPlan_spec s
    · simpa [writeControl, dsAfterWrite, h, controlRegisters, descriptor, writeBound] using muteClrPlan_spec s
  case outputRemap => exact memWrite_spec _ _ _ (by simp [controlRegisters]) s
  case spdifChannel => exact memWrite_spec _ _ _ (by simp [controlRegisters]) s
  all_goals exact fieldWrite_spec _ _ _ _ _ (by simp [controlRegisters]) s

/-- The relock pulse's two field writes (R188). -/
def relockWrites : Plan Unit := planBind (fieldWrite 17#8 0x20#8 5 1#8) fun _ => fieldWrite 17#8 0x20#8 5 0#8

/-- NEG's pulse: the two field writes, and the family recorded only after both succeeded (R188). -/
theorem relockIfChanged_pulse {f : Family} {s : State} (h : s.ds.lastClass ≠ some f) :
    relockIfChanged (some f) s =
      match relockWrites s with
      | .done _ t => .done true (t.setDs { t.ds with lastClass := some f })
      | .raised e addr t => .raised e addr t
      | .stopped t => .stopped t := by
  simp only [relockIfChanged, h, if_false, relockPulse, relockWrites, planBind, planPure]
  cases fieldWrite 17#8 0x20#8 5 1#8 s with
  | done a t => dsimp only; cases fieldWrite 17#8 0x20#8 5 0#8 t <;> rfl
  | raised e addr t => rfl
  | stopped t => rfl

theorem relockWrites_spec (s : State) :
    PlanSpec [17#8] 4 s (relockWrites s) :=
  .bind (n := 2) (m := 2) (fieldWrite_spec _ _ _ _ _ (by simp) s) fun _ t => fieldWrite_spec _ _ _ _ _ (by simp) t

/-! The control ids. -/

/-- An id names a control exactly when it is legal (R94). -/
theorem controlOfId_isSome (ctl : BitVec 8) : (controlOfId ctl).isSome = controlIdLegal ctl := by
  revert ctl; decide

/-- Each control's id is its own (R94). -/
theorem controlOfId_eq_some {ctl : BitVec 8} {c : Control} (h : controlOfId ctl = some c) : ctl = controlId c := by
  have : ∀ ctl : BitVec 8, (controlOfId ctl).all fun c => ctl = controlId c := by decide
  simpa [h] using this ctl

/-! What a command can do. -/

/-- DeviceState as a command leaves it, but for the family NEG records. -/
def DsStep (i : Instr) (s : State) (d : DeviceState) : Prop :=
  match i with
  | .streamStart => d = { s.ds with streamMuted := false }
  | .streamStop => d = { s.ds with streamMuted := true }
  | .muteSet => d = { s.ds with forceMute := true }
  | .muteClr => d = { s.ds with forceMute := false }
  | .muteMode => d = ((muteModeOperand s.opArg0).map fun m => { s.ds with muteMode := m }).getD s.ds
  | .ctlWr ctl => d = s.ds ∨ (ctl = 0x01#8 ∧ ∃ b, d = { s.ds with forceMute := b })
  | .volFwd | .volInv | .ctlRd _ | .neg | .fmtSpdif => d = s.ds

/-- What a command that ended with report `e` and address `addr` writes before it ends (R96, R150, R188). -/
def ResultStep (i : Instr) (e : Report) (addr : Byte) (u v : State) : Prop :=
  match i with
  | .volFwd | .volInv => (e = .ok ∧ ∃ x, v = u.setRes0 x) ∨ (e ≠ .ok ∧ v = u)
  | .ctlRd _ => (e = .ok ∧ ((addr = 0#8 ∧ ∃ x, v = u.setRes0 x) ∨ v = u.setDegraded.setRes0 0#32)) ∨ (e = .badCtlId ∧ v = u)
  | .neg =>
    (e = .ok ∧ ∃ p relock, planClock u.cfg u.opArg0 u.opArg1 = .ok p ∧
      ((relock = false ∧ (p.family = none ∨ u.ds.lastClass = p.family) ∧ v = u.reportPlan p relock) ∨
       (relock = true ∧ ∃ f, p.family = some f ∧ u.ds.lastClass ≠ some f ∧
        v = (u.setDs { u.ds with lastClass := some f }).reportPlan p relock))) ∨ (e ≠ .ok ∧ v = u)
  | .ctlWr _ | .streamStart | .streamStop | .muteSet | .muteClr | .fmtSpdif | .muteMode => v = u

/-- How the transactions of a command that ended fit its report (R242, R245, R248, R150). -/
inductive EndStep (i : Instr) (new : List PortEvent) : Report → Byte → Prop where
  | clean (e : Report) (ok : ∀ x ∈ new, x.isOk = true) (he : e.isTransport = false) (hu : e ≠ .unsupportedOp) :
      EndStep i new e 0#8
  | readFailed (addr : Byte) (pre : List PortEvent) (hn : new = pre ++ [.readFailed addr])
      (ok : ∀ x ∈ pre, x.isOk = true) (hi : ∀ ctl, i ≠ .ctlRd ctl) : EndStep i new .transportRead addr
  | writeFailed (addr v : Byte) (pre : List PortEvent) (hn : new = pre ++ [.writeFailed addr v])
      (ok : ∀ x ∈ pre, x.isOk = true) (hi : ∀ ctl, i ≠ .ctlRd ctl) : EndStep i new .transportWrite addr
  | degraded (addr : Byte) (ctl : BitVec 8) (pre : List PortEvent) (hn : new = pre ++ [.readFailed addr])
      (ok : ∀ x ∈ pre, x.isOk = true) (hi : i = .ctlRd ctl) : EndStep i new .ok addr

/-- A run of command `i` from `s`: it waits for an answer that never comes, the host detached while every transaction so
far had succeeded, or it ended. -/
inductive CommandRun (i : Instr) (s : State) : State → Prop where
  | hung (d : DeviceState) (pre : List PortEvent) (e : PortEvent) (u : State) (hd : DsStep i s d)
      (h : Effect (commandRegisters i) (commandTransactions i) (pre ++ [e]) (s.setDs d) u)
      (ok : ∀ x ∈ pre, x.isOk = true) (he : e.isUnanswered = true) : CommandRun i s u
  | left (d : DeviceState) (new : List PortEvent) (u : State) (hd : DsStep i s d)
      (h : Effect (commandRegisters i) (commandTransactions i) new (s.setDs d) u)
      (ok : ∀ x ∈ new, x.isOk = true) : CommandRun i s u.leave
  | ended (d : DeviceState) (new : List PortEvent) (u v : State) (e : Report) (addr : Byte) (hd : DsStep i s d)
      (h : Effect (commandRegisters i) (commandTransactions i) new (s.setDs d) u) (hr : ResultStep i e addr u v)
      (he : EndStep i new e addr) : CommandRun i s (endCommand e addr v)

/-- A command that ends before any transaction and writes nothing. -/
theorem CommandRun.atOnce {i : Instr} {s : State} {e : Report} (hd : DsStep i s s.ds) (hr : ResultStep i e 0#8 s s)
    (he : e.isTransport = false) (hu : e ≠ .unsupportedOp) : CommandRun i s (endCommand e 0#8 s) :=
  .ended s.ds [] s s e 0#8 hd ((Effect.refl _ s).mono (fun _ => id) (Nat.zero_le _)) hr (.clean e (by simp) he hu)

/-- A command whose plan has no results. -/
theorem CommandRun.plain {i : Instr} {s : State} {d : DeviceState} {r : PlanResult Unit} (hd : DsStep i s d)
    (hr : ∀ e addr u, ResultStep i e addr u u) (hi : ∀ ctl, i ≠ .ctlRd ctl)
    (h : PlanSpec (commandRegisters i) (commandTransactions i) (s.setDs d) r) : CommandRun i s (finishPlain r) := by
  cases h with
  | done a t new h ok => exact .ended d new t t .ok 0#8 hd h (hr _ _ _) (.clean _ ok rfl (by simp))
  | readFailed addr t pre h ok => exact .ended d _ t t _ addr hd h (hr _ _ _) (.readFailed addr pre rfl ok hi)
  | writeFailed addr v t pre h ok => exact .ended d _ t t _ addr hd h (hr _ _ _) (.writeFailed addr v pre rfl ok hi)
  | hung t pre e h ok he => exact .hung d pre e t hd h ok he
  | left t new h ok => exact .left d new t hd h ok

theorem execCtlRd_run (ctl : BitVec 8) (s : State) : ∃ t, execCtlRd ctl s = .next t ∧ CommandRun (.ctlRd ctl) s t := by
  refine ⟨_, rfl, ?_⟩
  cases hc : controlOfId ctl with
  | none => exact .atOnce rfl (.inr ⟨rfl, rfl⟩) rfl (by simp)
  | some c =>
    have hb : readBound c = commandTransactions (.ctlRd ctl) := by
      rw [controlOfId_eq_some hc]; cases c <;> rfl
    have h := readControl_spec c s
    rw [hb] at h
    show CommandRun _ s (finishRead (readControl c s))
    generalize readControl c s = r at h
    cases h with
    | done v t new h ok =>
      exact .ended s.ds new t _ .ok 0#8 rfl h (.inl ⟨rfl, .inl ⟨rfl, v, rfl⟩⟩) (.clean _ ok rfl (by simp))
    | readFailed addr t pre h ok =>
      exact .ended s.ds _ t _ .ok addr rfl h (.inl ⟨rfl, .inr rfl⟩) (.degraded addr ctl pre rfl ok rfl)
    | writeFailed addr v t pre h ok =>
      exact absurd (h.writes (.writeFailed addr v) (by simp) addr (by simp [PortEvent.writesTo])) (by simp)
    | hung t pre e h ok he => exact .hung s.ds pre e t rfl h ok he
    | left t new h ok => exact .left s.ds new t rfl h ok

theorem execCtlWr_run (ctl : BitVec 8) (s : State) : ∃ t, execCtlWr ctl s = .next t ∧ CommandRun (.ctlWr ctl) s t := by
  refine ⟨_, rfl, ?_⟩
  cases hc : controlOfId ctl with
  | none => exact .atOnce (.inl rfl) rfl rfl (by simp)
  | some c =>
    have hb : writeBound c = commandTransactions (.ctlWr ctl) := by
      rw [controlOfId_eq_some hc]; cases c <;> rfl
    have hg : controlRegisters c = commandRegisters (.ctlWr ctl) := by simp [commandRegisters, hc]
    show CommandRun _ s (if legalValue c s.opArg0 then finishPlain (writeControl c s.opArg0 s)
      else endCommand .outOfRange 0#8 s)
    split
    · have h := writeControl_spec c s.opArg0 s
      rw [hb, hg] at h
      refine .plain ?_ (fun _ _ _ => rfl) (by simp) h
      rw [controlOfId_eq_some hc]
      cases c <;> first | exact .inl rfl | exact .inr ⟨rfl, _, rfl⟩
    · exact .atOnce (.inl rfl) rfl rfl (by simp)

/-- The checks of NEG report CONFIG errors only (R190). -/
theorem planClock_error {c : Cfg} {rate format : Word} {e : Report} (h : planClock c rate format = .error e) :
    e = .badFormat ∨ e = .unsupportedRate ∨ e = .divideByZero ∨ e = .divisorZero := by
  unfold planClock at h
  split at h
  · simp at h; simp [← h]
  · split at h
    · simp at h; simp [← h]
    · simp only at h
      split at h
      · simp at h; simp [← h]
      · split at h <;> simp at h
        simp [← h]

theorem execNeg_run (s : State) : ∃ t, execNeg s = .next t ∧ CommandRun .neg s t := by
  refine ⟨_, rfl, ?_⟩
  cases hp : planClock s.cfg s.opArg0 s.opArg1 with
  | error e =>
    rcases planClock_error hp with rfl | rfl | rfl | rfl <;> exact .atOnce rfl (.inr ⟨by simp, rfl⟩) rfl (by simp)
  | ok p =>
    show CommandRun .neg s (finish (fun relock t => t.reportPlan p relock) (relockIfChanged p.family s))
    have none (hf : p.family = none ∨ s.ds.lastClass = p.family) :
        CommandRun .neg s (endCommand .ok 0#8 (s.reportPlan p false)) :=
      .ended s.ds [] s _ .ok 0#8 rfl ((Effect.refl _ s).mono (fun _ => id) (Nat.zero_le _))
        (.inl ⟨rfl, p, false, hp, .inl ⟨rfl, hf, rfl⟩⟩) (.clean _ (by simp) rfl (by simp))
    cases hf : p.family with
    | none => exact none (.inl hf)
    | some f =>
      by_cases hl : s.ds.lastClass = some f
      · simp only [relockIfChanged, hl, if_true]
        exact none (.inr (hl.trans hf.symm))
      · rw [relockIfChanged_pulse hl]
        have h := relockWrites_spec s
        generalize relockWrites s = r at h
        cases h with
        | done a t new h ok =>
          refine .ended s.ds new t _ .ok 0#8 rfl h (.inl ⟨rfl, p, true, ?_, .inr ⟨rfl, f, hf, ?_, rfl⟩⟩)
            (.clean _ ok rfl (by simp))
          · rw [h.cfg, h.opArg0, h.opArg1]; exact hp
          · rw [h.ds]; exact hl
        | readFailed addr t pre h ok =>
          exact .ended s.ds _ t t _ addr rfl h (.inr ⟨by simp, rfl⟩) (.readFailed addr pre rfl ok (by simp))
        | writeFailed addr v t pre h ok =>
          exact .ended s.ds _ t t _ addr rfl h (.inr ⟨by simp, rfl⟩) (.writeFailed addr v pre rfl ok (by simp))
        | hung t pre e h ok he => exact .hung s.ds pre e t rfl h ok he
        | left t new h ok => exact .left s.ds new t rfl h ok

/-- EVERY COMMAND, from every state, for every answer of the port, answers a next state that one of the three cases
of `CommandRun` describes. -/
theorem exec_run (i : Instr) (s : State) : ∃ t, exec i s = .next t ∧ CommandRun i s t := by
  have nothing {i : Instr} : Effect (commandRegisters i) (commandTransactions i) [] s s :=
    (Effect.refl _ s).mono (fun _ => id) (Nat.zero_le _)
  cases i with
  | volFwd =>
    refine ⟨_, rfl, ?_⟩
    split
    · exact .ended s.ds [] s _ .ok 0#8 rfl nothing (.inl ⟨rfl, _, rfl⟩) (.clean _ (by simp) rfl (by simp))
    · exact .atOnce rfl (.inr ⟨by simp, rfl⟩) rfl (by simp)
  | volInv =>
    exact ⟨_, rfl, .ended s.ds [] s _ .ok 0#8 rfl nothing (.inl ⟨rfl, _, rfl⟩) (.clean _ (by simp) rfl (by simp))⟩
  | ctlRd ctl => exact execCtlRd_run ctl s
  | ctlWr ctl => exact execCtlWr_run ctl s
  | neg => exact execNeg_run s
  | streamStart => exact ⟨_, rfl, .plain rfl (fun _ _ _ => rfl) (by simp) (streamStartPlan_spec s)⟩
  | streamStop => exact ⟨_, rfl, .plain rfl (fun _ _ _ => rfl) (by simp) (streamStopPlan_spec s)⟩
  | muteSet => exact ⟨_, rfl, .plain rfl (fun _ _ _ => rfl) (by simp) (muteSetPlan_spec s)⟩
  | muteClr => exact ⟨_, rfl, .plain rfl (fun _ _ _ => rfl) (by simp) (muteClrPlan_spec s)⟩
  | fmtSpdif => exact ⟨_, rfl, .plain (d := s.ds) rfl (fun _ _ _ => rfl) (by simp) (fmtSpdifPlan_spec s)⟩
  | muteMode =>
    refine ⟨_, rfl, ?_⟩
    cases hm : muteModeOperand s.opArg0 with
    | none => exact .atOnce (by simp [DsStep, hm]) rfl rfl (by simp)
    | some m =>
      exact .plain (d := { s.ds with muteMode := m }) (by simp [DsStep, hm]) (fun _ _ _ => rfl) (by simp)
        (muteModePlan_spec m s)

/-- The run behind an answer of `exec`. -/
theorem run_of_exec {i : Instr} {s t : State} (h : exec i s = .next t) : CommandRun i s t := by
  obtain ⟨u, hu, hr⟩ := exec_run i s
  rw [hu] at h
  cases h
  exact hr

end Sys2Proof.Machine
end

