-- ==== Sys2Proof/Laws/PerInstr.lean ====
section
/-! SUPPORT. Statements made per instruction: what the word of each command holds (spec 30_encoding.md rules R90,
R93). -/

namespace Sys2Proof.Laws.Encoding
open Sys2Proof

/-- The word of a command holds its opcode in bits 7:0, its control id or 0 in bits 15:8, and 0 in bits 31:16. -/
def Statement (i : Instr) : Prop :=
  opField (encode i) = opcodeOf i ∧ ctlField (encode i) = ctlOf i ∧ reservedField (encode i) = 0#16

/-- The three fields of a word put together from an opcode and a control id are the ones put in. -/
theorem fields_of_word (op ctl : BitVec 8) :
    opField (0#16 ++ ctl ++ op) = op ∧ ctlField (0#16 ++ ctl ++ op) = ctl ∧ reservedField (0#16 ++ ctl ++ op) = 0#16 := by
  have hw : (0#16 ++ ctl ++ op).toNat = ctl.toNat * 2 ^ 8 + op.toNat := by
    rw [BitVec.toNat_append, BitVec.toNat_append, ← Nat.shiftLeft_add_eq_or_of_lt op.isLt, Nat.shiftLeft_eq]
    simp
  have h1 := op.isLt
  have h2 := ctl.isLt
  refine ⟨?_, ?_, ?_⟩ <;> apply BitVec.eq_of_toNat_eq <;>
    simp only [opField, ctlField, reservedField, BitVec.extractLsb'_toNat, hw, Nat.shiftRight_eq_div_pow,
      BitVec.toNat_ofNat] <;> omega

theorem volFwd : Statement .volFwd := fields_of_word 0x01#8 0#8
theorem volInv : Statement .volInv := fields_of_word 0x02#8 0#8
theorem ctlRd (ctl : BitVec 8) : Statement (.ctlRd ctl) := fields_of_word 0x10#8 ctl
theorem ctlWr (ctl : BitVec 8) : Statement (.ctlWr ctl) := fields_of_word 0x11#8 ctl
theorem neg : Statement .neg := fields_of_word 0x20#8 0#8
theorem streamStart : Statement .streamStart := fields_of_word 0x30#8 0#8
theorem streamStop : Statement .streamStop := fields_of_word 0x31#8 0#8
theorem muteSet : Statement .muteSet := fields_of_word 0x32#8 0#8
theorem muteClr : Statement .muteClr := fields_of_word 0x33#8 0#8
theorem fmtSpdif : Statement .fmtSpdif := fields_of_word 0x34#8 0#8
theorem muteMode : Statement .muteMode := fields_of_word 0x35#8 0#8

end Sys2Proof.Laws.Encoding
end

