-- ==== Sys2Proof/Machine/Program.lean ====
section
/-! DEFINITION. The assembler and the running of a program (spec 30_encoding.md rules R100 to R103,
70_reset_and_hazards.md rule R291): a line of text assembles to triples (CMD, ARG0, ARG1), a program is a list of them,
and running it is the host's moves for each line in order. Only the reading of characters (commas, digits, comments) is
left out. -/

namespace Sys2Proof.Machine

/-- A command line: a command and its two operands, 0 where unused (R100). -/
structure CommandLine where
  instr : Instr
  arg0  : Word
  arg1  : Word
  deriving DecidableEq, Repr

/-- The triple a line assembles to (R100, R102). -/
def CommandLine.triple (l : CommandLine) : Word × Word × Word := (encode l.instr, l.arg0, l.arg1)

/-- The host's moves for a line: write `ARG0`, `ARG1`, `CMD`, then read `STATUS` until DONE = 1 (R100). -/
def CommandLine.moves (l : CommandLine) : List HostMove :=
  [.write 0x04 4 l.arg0, .write 0x08 4 l.arg1, .write 0x00 4 (encode l.instr), .readUntilDone]

/-- `CTL.WR NAME, v` (R100). -/
def lineWrite (c : Control) (v : Word) : CommandLine := ⟨.ctlWr (controlId c), v, 0#32⟩

/-- `CTL.RD NAME` (R100). -/
def lineRead (c : Control) : CommandLine := ⟨.ctlRd (controlId c), 0#32, 0#32⟩

/-- The pseudo-instruction VOL.SET (R101). -/
def pseudoVolSet (i : Word) : List CommandLine := [lineWrite .volume i]

/-- The pseudo-instruction VOL.GET (R101). -/
def pseudoVolGet : List CommandLine := [lineRead .volume]

/-- The pseudo-instruction MUTE (R101). -/
def pseudoMute (v : Word) : List CommandLine := [lineWrite .mute v]

/-- The pseudo-instruction DPLL.PULSE (R101, R280). -/
def pseudoDpllPulse : List CommandLine := [lineWrite .dpllReset 1#32, lineWrite .dpllReset 0#32]

/-- The pseudo-instruction SPDIF.OFF (R101, R219). -/
def pseudoSpdifOff : List CommandLine := [lineWrite .spdifForce 0#32]

/-- The pseudo-instruction NOP assembles to nothing (R101). -/
def pseudoNop : List CommandLine := []

/-- The FORMAT of a NEG line: `PCM` is `pcm 0`, `PCM/w` is `pcm w` (R100). -/
inductive FormatName where
  | pcm (width : BitVec 8)
  | dsd8
  | dsd16
  | dsd32
  deriving DecidableEq, Repr

/-- The format code a FORMAT assembles to: FCLASS 7:0, PCM_WIDTH 15:8 (R95, R100). -/
def formatWord : FormatName → Word
  | .pcm w => 0#16 ++ w ++ 0x00#8
  | .dsd8 => 0x01#32
  | .dsd16 => 0x02#32
  | .dsd32 => 0x03#32

/-- A line of the assembler's source: the commands of R100 and the pseudo-instructions of R101. -/
inductive SourceLine where
  | volFwd (i : Word)
  | volInv (m : Word)
  | ctlRd (name : Control)
  | ctlWr (name : Control) (v : Word)
  | neg (rate : Word) (format : FormatName)
  | streamStart
  | streamStop
  | muteSet
  | muteClr
  | fmtSpdif
  | muteMode (mode : MuteMode)
  | volSet (i : Word)
  | volGet
  | mute (v : Word)
  | dpllPulse
  | spdifOff
  | nop
  deriving DecidableEq, Repr

/-- What a line assembles to, unused arguments 0 (R100, R101). -/
def SourceLine.assemble : SourceLine → List CommandLine
  | .volFwd i => [⟨.volFwd, i, 0#32⟩]
  | .volInv m => [⟨.volInv, m, 0#32⟩]
  | .ctlRd name => [lineRead name]
  | .ctlWr name v => [lineWrite name v]
  | .neg rate format => [⟨.neg, rate, formatWord format⟩]
  | .streamStart => [⟨.streamStart, 0#32, 0#32⟩]
  | .streamStop => [⟨.streamStop, 0#32, 0#32⟩]
  | .muteSet => [⟨.muteSet, 0#32, 0#32⟩]
  | .muteClr => [⟨.muteClr, 0#32, 0#32⟩]
  | .fmtSpdif => [⟨.fmtSpdif, 0#32, 0#32⟩]
  | .muteMode mode => [⟨.muteMode, match mode with | .never => 0#32 | .onIdle => 1#32, 0#32⟩]
  | .volSet i => pseudoVolSet i
  | .volGet => pseudoVolGet
  | .mute v => pseudoMute v
  | .dpllPulse => pseudoDpllPulse
  | .spdifOff => pseudoSpdifOff
  | .nop => pseudoNop

/-- A program: its lines in order (R100, R103). -/
abbrev Program := List CommandLine

/-- The program that lines of source assemble to. -/
def assembleLines (lines : List SourceLine) : Program := lines.flatMap SourceLine.assemble

/-- The host's moves for a program: those of each line in order (R100). -/
def Program.moves (p : Program) : List HostMove := p.flatMap CommandLine.moves

/-- The host is given a program to run (notes/assumptions/9.md). -/
def State.loadProgram (p : Program) (s : State) : State := s.setMoves p.moves

/-- `n` steps, up to the first stop. -/
def runSteps : Nat → State → Host.Outcome State Fault Refusal
  | 0, s => .next s
  | n + 1, s =>
    match step s with
    | .next t => runSteps n t
    | .fault r => .fault r
    | .refused r => .refused r

/-- The run of a program from `s` (R100): as many steps as its moves take when each command ends. Where a command is
left BUSY the host still reads `STATUS` at the last of them, and at every step after it. -/
def runProgram (p : Program) (s : State) : Host.Outcome State Fault Refusal :=
  runSteps p.moves.length (s.loadProgram p)

/-- A run is over when the host has made every move of its program: it has read DONE = 1 for the last line (R291). -/
def State.runOver (s : State) : Prop := s.host.moves = []

end Sys2Proof.Machine
end

