-- ==== Sys2Proof/Laws/Program.lean ====
section
/-! SUPPORT. What running a program does, said once for a line (spec 30_encoding.md rule R100, 70_reset_and_hazards.md
rules R289, R291): the command of the line runs with the line's operands, and the host goes on to the next line exactly
when it has read DONE = 1. -/

namespace Sys2Proof.Machine

/-- The read of `STATUS` shows DONE in bit 1 (R25). -/
theorem windowRead_status_done (s : State) : (windowRead .status s).getLsbD 1 = s.status.done := by
  simp only [windowRead, statusWord, BitVec.getLsbD_append]
  cases s.status.done <;> simp

/-- A read of `STATUS` that shows DONE ends the waiting. -/
theorem pollStatus_done {s : State} (h : s.status.done = true) : pollStatus s = s.setRdata (windowRead .status s) := by
  simp only [pollStatus, windowRead_status_done, h, if_true]

/-- A read of `STATUS` without DONE changes nothing but what the host received, and the host reads again. -/
theorem pollStatus_waits {s : State} (h : s.status.done = false) :
    pollStatus s = (s.setRdata (windowRead .status s)).setMoves (.readUntilDone :: s.host.moves) := by
  simp only [pollStatus, windowRead_status_done, h, Bool.false_eq_true, if_false, State.setRdata_host]

/-- A run goes on from the state an earlier part of it reached. -/
theorem run_add (m n : Nat) (s : State) : runSteps (m + n) s =
    match runSteps m s with
    | .next t => runSteps n t
    | .fault r => .fault r
    | .refused r => .refused r := by
  induction m generalizing s with
  | zero => rw [Nat.zero_add]; rfl
  | succ m ih =>
    rw [Nat.succ_add]
    simp only [runSteps]
    cases step s with
    | next t => exact ih t
    | fault r => rfl
    | refused r => rfl

/-- The state in which the command of a line starts: the line's operands latched, `CMD` accepted, and the read of
`STATUS` the host's next move. -/
def State.lineStart (l : CommandLine) (rest : List HostMove) (s : State) : State :=
  busyPoint (accept (encode l.instr) { s.setMoves (.readUntilDone :: rest) with arg0 := l.arg0, arg1 := l.arg1 })

/-- The first three moves of a line, of an attached idle block: the line's command runs from `lineStart`. -/
theorem run_line_start {s t : State} {l : CommandLine} {rest : List HostMove} (ha : s.attached = true)
    (hf : s.fsm = .idle) (hm : s.host.moves = l.moves ++ rest) (hd : decode (encode l.instr) = .ok l.instr)
    (he : exec l.instr (s.lineStart l rest) = .next t) : runSteps 3 s = .next t := by
  simp only [runSteps, step, engineStep, hm, CommandLine.moves, List.cons_append, List.nil_append, hostMove,
    State.setMoves, ha, hf, windowRegister, windowWrite, runCommand, hd, if_true, ne_eq, not_true_eq_false, if_false]
  simp only [State.lineStart, State.setMoves, ha, hf] at he
  rw [he]

/-- What a result step leaves of the host's side. -/
theorem ResultStep.sameHost {i : Instr} {e : Report} {addr : Byte} {u v : State} (h : ResultStep i e addr u v) :
    v.attached = u.attached ∧ v.host = u.host := by
  cases i <;> simp only [ResultStep] at h
  case neg => rcases h with ⟨-, p, r, -, ⟨-, -, rfl⟩ | ⟨-, f, -, -, rfl⟩⟩ | ⟨-, rfl⟩ <;> exact ⟨rfl, rfl⟩
  case ctlRd => rcases h with ⟨-, ⟨-, x, rfl⟩ | rfl⟩ | ⟨-, rfl⟩ <;> exact ⟨rfl, rfl⟩
  case volFwd => rcases h with ⟨-, x, rfl⟩ | ⟨-, rfl⟩ <;> exact ⟨rfl, rfl⟩
  case volInv => rcases h with ⟨-, x, rfl⟩ | ⟨-, rfl⟩ <;> exact ⟨rfl, rfl⟩
  all_goals exact h ▸ ⟨rfl, rfl⟩

/-- What the host finds of a block after its command: DONE exactly as the control state says, and its own moves where
the command ended. -/
theorem exec_seen {i : Instr} {s t : State} (h : exec i s = .next t) (hb : s.fsm = .busy) (hd : s.status.done = false) :
    t.attached = s.attached ∧ (t.fsm = .busy → t.status.done = false) ∧
      (t.fsm = .idle → t.status.done = true ∧ t.host.moves = s.host.moves) := by
  cases run_of_exec h with
  | hung d pre e _ _ g => exact ⟨g.attached, fun _ => g.status_done.trans hd, fun k => by rw [g.fsm.trans hb] at k; cases k⟩
  | left d new u _ g =>
    exact ⟨g.attached, fun _ => g.status_done.trans hd, fun k => by
      rw [show u.leave.fsm = _ from g.fsm.trans hb] at k; cases k⟩
  | ended d new u v e addr _ g hr =>
    obtain ⟨h1, h2⟩ := hr.sameHost
    exact ⟨h1.trans g.attached, nofun, fun _ => ⟨rfl, (congrArg HostSide.moves h2).trans g.host_moves⟩⟩

/-- What the host finds of a line's block after the line's command. -/
theorem exec_line_seen {s t : State} {l : CommandLine} {rest : List HostMove}
    (he : exec l.instr (s.lineStart l rest) = .next t) : t.attached = s.attached ∧
      (t.fsm = .busy → t.status.done = false) ∧
      (t.fsm = .idle → t.status.done = true ∧ t.host.moves = .readUntilDone :: rest) := by
  have h := exec_seen he (by simp [State.lineStart, accept]) (by simp [State.lineStart, accept])
  simpa [State.lineStart, accept] using h

/-- A line whose command ends: the host reads the DONE that the end set, and its next move is the next line's. -/
theorem run_line {s t : State} {l : CommandLine} {rest : List HostMove} (ha : s.attached = true) (hf : s.fsm = .idle)
    (hm : s.host.moves = l.moves ++ rest) (hd : decode (encode l.instr) = .ok l.instr)
    (he : exec l.instr (s.lineStart l rest) = .next t) (ht : t.fsm = .idle) :
    runSteps 4 s = .next ((t.setMoves rest).setRdata (windowRead .status t)) := by
  obtain ⟨h1, -, h2⟩ := exec_line_seen he
  obtain ⟨h3, h4⟩ := h2 ht
  rw [show 4 = 3 + 1 from rfl, run_add, run_line_start ha hf hm hd he]
  have ha' : (t.setMoves rest).attached = true := h1.trans ha
  have h5 : (t.setMoves rest).status.done = true := h3
  simp only [runSteps, step, engineStep, h4, hostMove, ha', if_true, pollStatus_done h5]
  rfl

/-- One read of `STATUS` by a host that waits for DONE. -/
theorem step_waits {t : State} {rest : List HostMove} (ha : t.attached = true) (hd : t.status.done = false)
    (hn : t.host.moves = .readUntilDone :: rest) : step t = .next (t.setRdata (windowRead .status t)) := by
  have ha' : (t.setMoves rest).attached = true := ha
  have hd' : (t.setMoves rest).status.done = false := hd
  simp only [step, engineStep, hn, hostMove, ha', if_true, pollStatus_waits hd']
  simp [State.setMoves, State.setRdata, windowRead, ← hn]

/-- A line whose command waits for an answer that never comes: the host reads `STATUS` at every step, and no later line
starts (R289). -/
theorem run_line_waits {s t : State} {l : CommandLine} {rest : List HostMove} (ha : s.attached = true)
    (hf : s.fsm = .idle) (hm : s.host.moves = l.moves ++ rest) (hd : decode (encode l.instr) = .ok l.instr)
    (he : exec l.instr (s.lineStart l rest) = .next t) (ht : t.fsm = .busy)
    (hn : t.host.moves = .readUntilDone :: rest) (n : Nat) :
    runSteps (4 + n) s = .next (t.setRdata (windowRead .status t)) := by
  obtain ⟨h1, h2, -⟩ := exec_line_seen he
  have first : step t = .next (t.setRdata (windowRead .status t)) := step_waits (h1.trans ha) (h2 ht) hn
  have again : step (t.setRdata (windowRead .status t)) = .next (t.setRdata (windowRead .status t)) :=
    step_waits (t := t.setRdata (windowRead .status t)) (h1.trans ha) (h2 ht) hn
  have more (n : Nat) :
      runSteps n (t.setRdata (windowRead .status t)) = .next (t.setRdata (windowRead .status t)) := by
    induction n with
    | zero => rfl
    | succ n ih => simp only [runSteps, again, ih]
  rw [show 4 + n = 3 + (n + 1) by omega, run_add, run_line_start ha hf hm hd he]
  simp only [runSteps, first, more]

/-- A program runs its first line and then its other lines, if the first line's command ends (R100). -/
theorem runProgram_cons {s t : State} {l : CommandLine} {p : Program} (ha : s.attached = true) (hf : s.fsm = .idle)
    (hd : decode (encode l.instr) = .ok l.instr) (he : exec l.instr (s.lineStart l p.moves) = .next t)
    (ht : t.fsm = .idle) : runProgram (l :: p) s = runProgram p (t.setRdata (windowRead .status t)) := by
  have hl : Program.moves (l :: p) = l.moves ++ p.moves := by simp [Program.moves]
  have h := run_line (s := s.loadProgram (l :: p)) (rest := p.moves) ha hf hl hd he ht
  show runSteps _ _ = runSteps _ _
  rw [hl, List.length_append, show l.moves.length = 4 from rfl, run_add, h]
  rfl

end Sys2Proof.Machine
end

