-- ==== Sys2Proof/Laws/Registers.lean ====
section
/-! SUPPORT. Which registers of the peripheral a plan names, in reads as in writes, however it goes (spec 20_memory.md
rules R63, R71, 42_clock_negotiator.md rule R193). -/

namespace Sys2Proof.Machine

/-- The state a plan reached, however it went. -/
def PlanResult.state {α : Type} : PlanResult α → State
  | .done _ s | .raised _ _ s | .stopped s => s

/-- Every transaction a plan issued from `s` names a register of `regs`. -/
def PlanNames {α : Type} (regs : List Byte) (s : State) (r : PlanResult α) : Prop :=
  ∃ new, r.state.log = s.log ++ new ∧ ∀ e ∈ new, e.reg ∈ regs

theorem PlanNames.pure {α : Type} (regs : List Byte) (s : State) (a : α) : PlanNames regs s (planPure a s) :=
  ⟨[], (List.append_nil _).symm, by simp⟩

theorem PlanNames.mono {α : Type} {regs regs' : List Byte} {s : State} {r : PlanResult α} (h : PlanNames regs s r)
    (hr : ∀ a ∈ regs, a ∈ regs') : PlanNames regs' s r :=
  let ⟨new, hl, hn⟩ := h
  ⟨new, hl, fun e he => hr _ (hn e he)⟩

/-- One plan after another. -/
theorem PlanNames.bind {α β : Type} {regs : List Byte} {p : Plan α} {f : α → Plan β} {s : State}
    (hp : PlanNames regs s (p s)) (hf : ∀ a t, PlanNames regs t (f a t)) : PlanNames regs s (planBind p f s) := by
  unfold planBind
  generalize p s = r at hp
  cases r with
  | done a t =>
    obtain ⟨l, hl, hn⟩ := hp
    obtain ⟨k, hk, hm⟩ := hf a t
    refine ⟨l ++ k, ?_, fun e he => (List.mem_append.1 he).elim (hn e) (hm e)⟩
    rw [hk, ← List.append_assoc, ← hl]
    rfl
  | raised e addr t => exact hp
  | stopped t => exact hp

/-- A plan of one transaction. -/
theorem PlanNames.one {α : Type} {regs : List Byte} {s : State} {r : PlanResult α} (e : PortEvent)
    (h : r.state.log = s.log ++ [e]) (he : e.reg ∈ regs) : PlanNames regs s r :=
  ⟨[e], h, by simpa using he⟩

theorem memRead_names {regs : List Byte} {a : Byte} (ha : a ∈ regs) (s : State) : PlanNames regs s (memRead a s) := by
  cases h : s.outcomeAt 0 with
  | none => exact ⟨[], by simp [memRead, h, PlanResult.state], by simp⟩
  | some o =>
    cases o with
    | ok => exact .one (.readOk a (s.byteRead 0 a)) (by simp [memRead_ok h, PlanResult.state]) ha
    | failed => exact .one (.readFailed a) (by simp [memRead_failed h, PlanResult.state]) ha
    | never => exact .one (.readUnanswered a) (by simp [memRead, h, PlanResult.state]) ha

theorem memWrite_names {regs : List Byte} {a : Byte} (ha : a ∈ regs) (v : Byte) (s : State) :
    PlanNames regs s (memWrite a v s) := by
  cases h : s.outcomeAt 0 with
  | none => exact ⟨[], by simp [memWrite, h, PlanResult.state], by simp⟩
  | some o =>
    cases o with
    | ok => exact .one (.writeOk a v) (by simp [memWrite_ok h, PlanResult.state]) ha
    | failed => exact .one (.writeFailed a v) (by simp [memWrite_failed h, PlanResult.state]) ha
    | never => exact .one (.writeUnanswered a v) (by simp [memWrite, h, PlanResult.state]) ha

theorem fieldWrite_names {regs : List Byte} {reg : Byte} (hr : reg ∈ regs) (mask : Byte) (shift : Nat) (code : Byte)
    (s : State) : PlanNames regs s (fieldWrite reg mask shift code s) := by
  unfold fieldWrite
  split
  · exact memWrite_names hr _ s
  · exact .bind (memRead_names hr s) fun _ t => memWrite_names hr _ t

theorem fieldRead_names {regs : List Byte} {reg : Byte} (hr : reg ∈ regs) (mask : Byte) (shift : Nat) (s : State) :
    PlanNames regs s (fieldRead reg mask shift s) :=
  .bind (memRead_names hr s) fun _ t => .pure regs t _

/-! The plans. -/

theorem writeMute_names (v : Bool) (s : State) : PlanNames [10#8] s (writeMute v s) := fieldWrite_names (by simp) _ _ _ s

theorem unmuteIfAllowed_names (s : State) : PlanNames [10#8] s (unmuteIfAllowed s) := by
  unfold unmuteIfAllowed
  split
  · exact .pure _ s ()
  · exact writeMute_names false s

theorem fmtSpdifPlan_names (s : State) : PlanNames [10#8, 8#8, 17#8] s (fmtSpdifPlan s) :=
  .bind ((writeMute_names true s).mono (by simp)) fun _ t =>
  .bind (fieldWrite_names (by simp) _ _ _ t) fun _ t =>
  .bind (fieldWrite_names (by simp) _ _ _ t) fun _ t => (unmuteIfAllowed_names t).mono (by simp)

theorem relockWrites_names (s : State) : PlanNames [17#8] s (relockWrites s) :=
  .bind (fieldWrite_names (by simp) _ _ _ s) fun _ t => fieldWrite_names (by simp) _ _ _ t

theorem volWrite_names (i : Nat) (s : State) : PlanNames [23#8, 22#8, 21#8, 20#8] s (volWrite i s) :=
  .bind (memWrite_names (by simp) _ s) fun _ t =>
  .bind (memWrite_names (by simp) _ t) fun _ t =>
  .bind (memWrite_names (by simp) _ t) fun _ t => memWrite_names (by simp) _ t

theorem volRead_names (s : State) : PlanNames [23#8, 22#8, 21#8, 20#8] s (volRead s) :=
  .bind (memRead_names (by simp) s) fun _ t =>
  .bind (memRead_names (by simp) t) fun _ t =>
  .bind (memRead_names (by simp) t) fun _ t =>
  .bind (memRead_names (by simp) t) fun _ t => .pure _ t _

/-- CTL.RD of a control reads its registers, and none for MUTE (R148, R149, R151). -/
theorem readControl_names (c : Control) (s : State) :
    PlanNames (if c = .mute then [] else controlRegisters c) s (readControl c s) := by
  cases c
  case volume => exact .bind (volRead_names s) fun _ t => .pure _ t _
  case mute => exact .pure _ s _
  all_goals
    first
    | exact .bind (memRead_names (by simp [controlRegisters, descriptor]) s) fun _ t => .pure _ t _
    | exact .bind (fieldRead_names (by simp [controlRegisters]) _ _ s) fun _ t => .pure _ t _

/-- CTL.WR of a control reads and writes its registers (R153). -/
theorem writeControl_names (c : Control) (v : Word) (s : State) :
    PlanNames (controlRegisters c) s (writeControl c v s) := by
  cases c
  case volume => exact volWrite_names _ s
  case mute =>
    unfold writeControl
    split
    · exact writeMute_names _ (s.setDs { s.ds with forceMute := true })
    · exact writeMute_names _ (s.setDs { s.ds with forceMute := false })
  case outputRemap => exact memWrite_names (by simp [controlRegisters]) _ s
  case spdifChannel => exact memWrite_names (by simp [controlRegisters]) _ s
  all_goals exact fieldWrite_names (by simp [controlRegisters]) _ _ _ s

end Sys2Proof.Machine
end

