-- ==== Sys2Proof/Tests/Slice0.lean ====
section
/-! SUPPORT. Small tests of one step each, with expected results from spec/95_test_vectors.md (its premise M written as
answers that succeed and return the byte the register holds), and for every statement of
`Certificates/Slice0/Obligations.lean` that has hypotheses a concrete state and operands that meet them. -/

namespace Sys2Proof.Tests
open Sys2Proof Sys2Proof.Machine

/-! Helpers. -/

/-- The peripheral of the vectors' premise M: every register of `PERIPH_INIT` 0x00. -/
def zeros : Peripheral := { init := Vector.replicate 256 0x00#8, cells := [] }

/-- The port serves a transaction and a read returns the byte the register holds. -/
def held : PortAnswer := ⟨.ok, 0x00#8, true⟩

/-- The port serves a transaction and a read returns `b`. -/
def drawn (b : Byte) : PortAnswer := ⟨.ok, b, false⟩

/-- The transaction fails. -/
def failing : PortAnswer := ⟨.failed, 0x00#8, false⟩

/-- The transaction is never answered. -/
def silent : PortAnswer := ⟨.never, 0x00#8, false⟩

/-- The state `S0` of section 0 of the vectors, with operands, port answers and one more move of the host. -/
def ready (a0 a1 : Word) (answers : List PortAnswer) (m : HostMove) : State :=
  { State.reset with
    arg0 := a0, arg1 := a1, periph := zeros, port := { answers := answers, drawn := 0 }, host := { State.reset.host with moves := [m] } }

/-- `S0` about to be given the command word `w`. -/
def given (w a0 a1 : Word) (answers : List PortAnswer) : State := ready a0 a1 answers (.write 0x00 4 w)

/-- A state whose host detaches the block before its `k`-th transaction from now. -/
def leaving (k : Nat) (s : State) : State := { s with host := { s.host with departs := List.replicate k false ++ [true] } }

/-- `S0` inside a command, with its operands latched. -/
def inside (a0 a1 : Word) (answers : List PortAnswer) : State :=
  { State.reset with fsm := .busy, opArg0 := a0, opArg1 := a1, periph := zeros, port := { answers := answers, drawn := 0 } }

/-- What a step's next state shows; `none` where it has none. -/
def seen {α : Type} (o : Host.Outcome State Fault Refusal) (f : State → α) : Option α :=
  match o with
  | .next t => some (f t)
  | .fault _ | .refused _ => none

/-- `STATUS` as the host reads it. -/
def status (t : State) : Word := windowRead .status t

/-- The result registers. -/
def results (t : State) : List Word := [t.res0, t.res1, t.res2, t.res3, t.res4]

/-- A configuration in Slave mode. -/
def slaveCfg : Cfg := { Config.nominal with mode := .slave }

theorem serves_of {s : State} {n : Nat} (h : (List.range n).all (fun k => decide (s.outcomeAt k = some .ok)) = true) :
    s.portServes n := by
  intro k hk
  have := List.all_eq_true.1 h k (List.mem_range.2 hk)
  simpa using this

theorem memoryLike_of {s : State} {n : Nat}
    (h : (List.range n).all (fun k => decide (s.outcomeAt k = some .ok ∧ (s.answerAt k).held = true)) = true) :
    s.portMemoryLike n := by
  intro k hk
  have := List.all_eq_true.1 h k (List.mem_range.2 hk)
  simpa using this

/-- A state with nothing in its log meets the invariant when its other parts do. -/
theorem inv_of {s : State} (h1 : s.periph.wf = true) (h2 : s.cfg.wellFormed = true) (h3 : s.statusCoherent)
    (h4 : s.classCoherent) (h5 : s.fsm = .idle → s.devstate = s.ds.image) (h6 : s.res4.toNat < 8 ∧ s.res4.toNat % 4 ≠ 2)
    (h7 : s.log = []) : s.Inv :=
  ⟨h1, h2, h3, h4, h5, h6, by rw [h7]; intro a v h; cases h⟩

/-! Well-formedness: each check refuses a term that breaks it. -/

theorem test_ctlRd_above_registry_refused : (Instr.ctlRd 0x15#8).wellFormed = false := by decide
theorem test_ctlWr_above_registry_refused : (Instr.ctlWr 0xFF#8).wellFormed = false := by decide
theorem test_table_start_refused :
    ({ Config.nominal with volRef := Config.volRefEx.set 0 0x7FFFFFFE#31 } : Cfg).wellFormed = false := by decide
theorem test_table_rise_refused :
    ({ Config.nominal with volRef := Config.volRefEx.set 15 0x45CAE0F1#31 } : Cfg).wellFormed = false := by decide
theorem test_table_close_entries_not_exact :
    ({ Config.nominal with volRef := Config.volRefEx.set 15 0x45CAE0F0#31 } : Cfg).exactTable = false := by decide
theorem test_table_low_end_not_exact :
    ({ Config.nominal with volRef := Config.volRefEx.set 15 0x40000FFF#31 } : Cfg).exactTable = false := by decide
theorem test_example_table_wellFormed : Config.nominal.wellFormed = true ∧ Config.nominal.exactTable = true := by decide

/-! Decoding: a word of each command, written out from R90 and R93 (bits 31:16 zero, CTL, OP), and section 6's words. -/

theorem test_decode_volFwd : decode 0b00000000000000000000000000000001#32 = .ok .volFwd := by decide
theorem test_decode_volInv : decode 0b00000000000000000000000000000010#32 = .ok .volInv := by decide
theorem test_decode_ctlRd : decode 0b00000000000000000001001100010000#32 = .ok (.ctlRd 0x13#8) := by decide
theorem test_decode_ctlWr : decode 0b00000000000000000001010000010001#32 = .ok (.ctlWr 0x14#8) := by decide
theorem test_decode_neg : decode 0b00000000000000000000000000100000#32 = .ok .neg := by decide
theorem test_decode_streamStart : decode 0b00000000000000000000000000110000#32 = .ok .streamStart := by decide
theorem test_decode_streamStop : decode 0b00000000000000000000000000110001#32 = .ok .streamStop := by decide
theorem test_decode_muteSet : decode 0b00000000000000000000000000110010#32 = .ok .muteSet := by decide
theorem test_decode_muteClr : decode 0b00000000000000000000000000110011#32 = .ok .muteClr := by decide
theorem test_decode_fmtSpdif : decode 0b00000000000000000000000000110100#32 = .ok .fmtSpdif := by decide
theorem test_decode_muteMode : decode 0b00000000000000000000000000110101#32 = .ok .muteMode := by decide
theorem test_decode_illegal_words :
    decode 0x00000000#32 = .error .badOpcode ∧ decode 0x00000012#32 = .error .badOpcode ∧
    decode 0x00010015#32 = .error .badOpcode ∧ decode 0x00010010#32 = .error .reservedBits ∧
    decode 0x00000120#32 = .error .reservedBits ∧ decode 0x00001510#32 = .error .badCtlId ∧
    decode 0x0000FF11#32 = .error .badCtlId := by decide
theorem test_table_word : decodeTableWord 32 0x00000011 = some (.ctlWr 0x00#8) := by decide
theorem test_first_instruction_after_reset :
    seen (step (State.reset.withFetchWord 32 0x00000001)) (fun t => (t.res0, status t)) =
      some (0x7FFFFFFF#32, 0x00010002#32) := by decide

/-! One step of each command (95_test_vectors.md, sections 2 to 7). -/

theorem test_volFwd_37 : seen (step (given 0x01#32 37#32 0#32 [])) (fun t => (t.res0, status t)) =
    some (0x19C49182#32, 0x00010002#32) := by decide
theorem test_volFwd_200 : seen (step (given 0x01#32 200#32 0#32 [])) (fun t => (t.res0, status t)) =
    some (0#32, 0x00011102#32) := by decide
theorem test_volInv_between_entries : seen (step (given 0x02#32 0x00062B38#32 0#32 [])) (fun t => (t.res0, status t)) =
    some (198#32, 0x00020002#32) := by decide
theorem test_volInv_ignores_bit31 : seen (step (given 0x02#32 0x80000000#32 0#32 [])) (fun t => t.res0) =
    some 199#32 := by decide
theorem test_ctlRd_field : seen (step (given 0x0510#32 0#32 0#32 [drawn 0x31#8])) (fun t => (t.res0, t.log)) =
    some (3#32, [.readOk 10#8 0x31#8]) := by decide
theorem test_ctlRd_volume_degraded :
    seen (step (given 0x10#32 0#32 0#32 [held, held, failing])) (fun t => (t.res0, status t, t.log)) =
      some (0#32, 0x1510000A#32, [.readOk 23#8 0#8, .readOk 22#8 0#8, .readFailed 21#8]) := by decide
theorem test_ctlWr_field_keeps_mute_bit :
    seen (step (given 0x0511#32 2#32 0#32 [drawn 0x01#8, held])) (fun t => (status t, t.log)) =
      some (0x00110002#32, [.readOk 10#8 0x01#8, .writeOk 10#8 0x21#8]) := by decide
theorem test_ctlWr_volume_fails_at_21 :
    seen (step (given 0x11#32 100#32 0#32 [held, held, failing])) (fun t => (status t, t.log)) =
      some (0x15112206#32, [.writeOk 23#8 0x01#8, .writeOk 22#8 0xAE#8, .writeFailed 21#8 0x89#8]) := by decide
theorem test_neg_half_rounds_up :
    seen (step (given 0x20#32 1600#32 0#32 [held, held, held, held])) (fun t => (results t, status t, t.log)) =
      some ([0x01588800#32, 0x00019000#32, 0#32, 0xDD#32, 0x4#32], 0x00200002#32,
        [.readOk 17#8 0x00#8, .writeOk 17#8 0x20#8, .readOk 17#8 0x20#8, .writeOk 17#8 0x00#8]) := by decide
theorem test_neg_unsupported_rate : seen (step (given 0x20#32 11111#32 0#32 [])) (fun t => (results t, status t)) =
    some ([0#32, 0#32, 0#32, 0#32, 0#32], 0x00202102#32) := by decide
theorem test_streamStart : seen (step (given 0x30#32 0#32 0#32 [held, held])) (fun t => (t.devstate, status t, t.log)) =
    some (0x04#32, 0x00300002#32, [.readOk 10#8 0x00#8, .writeOk 10#8 0x00#8]) := by decide
theorem test_streamStart_write_fails :
    seen (step (given 0x30#32 0#32 0#32 [held, failing])) (fun t => (t.devstate, status t)) =
      some (0x04#32, 0x0A302202#32) := by decide
theorem test_streamStop : seen (step (given 0x31#32 0#32 0#32 [held, held])) (fun t => (t.devstate, t.log)) =
    some (0x0E#32, [.readOk 10#8 0x00#8, .writeOk 10#8 0x01#8]) := by decide
theorem test_muteSet : seen (step (given 0x32#32 0#32 0#32 [held, held])) (fun t => (t.devstate, t.log)) =
    some (0x0F#32, [.readOk 10#8 0x00#8, .writeOk 10#8 0x01#8]) := by decide
theorem test_muteClr_idle_policy_keeps_mute :
    seen (step (given 0x33#32 0#32 0#32 [held, held])) (fun t => (t.devstate, t.log)) =
      some (0x0E#32, [.readOk 10#8 0x00#8, .writeOk 10#8 0x01#8]) := by decide
theorem test_fmtSpdif_stays_muted :
    seen (step (given 0x34#32 0#32 0#32 [held, held, held, held, held, held])) (fun t => (status t, t.log)) =
      some (0x00340002#32, [.readOk 10#8 0x00#8, .writeOk 10#8 0x01#8, .readOk 8#8 0x00#8, .writeOk 8#8 0x80#8,
        .readOk 17#8 0x00#8, .writeOk 17#8 0x08#8]) := by decide
theorem test_fmtSpdif_failures :
    seen (step (given 0x34#32 0#32 0#32 [held, held, held, failing])) (fun t => (status t, t.periph.read 10#8)) =
      some (0x08342206#32, 0x01#8) ∧
    seen (step { given 0x34#32 0#32 0#32 [failing] with
        ds := { State.reset.ds with streamMuted := false }, devstate := 0x04#32 })
      (fun t => (status t, windowRead .devstate t, t.log)) = some (0x0A341202#32, 0x04#32, [.readFailed 10#8]) := by decide
theorem test_muteMode_never : seen (step (given 0x35#32 0#32 0#32 [held, held])) (fun t => (t.devstate, t.log)) =
    some (0x02#32, [.readOk 10#8 0x00#8, .writeOk 10#8 0x00#8]) := by decide
theorem test_muteMode_2 : seen (step (given 0x35#32 2#32 0#32 [])) (fun t => (t.devstate, status t)) =
    some (0x0E#32, 0x00351102#32) := by decide

/-! The host window (section 7), attach, detach, and the moves that are refused. -/

theorem test_window_after_attach :
    [WinReg.cmd, .arg0, .arg1, .status, .res0, .res4, .devstate, .cfgRef44, .cfgRef48, .cfgBclkRatio, .cfgMode,
      .reserved38, .reserved3C].map (fun r => windowRead r State.reset) =
      [0#32, 0#32, 0#32, 0#32, 0#32, 0#32, 0x0000000E#32, 0x01588800#32, 0x01770000#32, 0x00000040#32, 0#32, 0#32,
        0#32] := by decide
theorem test_write_while_busy_dropped :
    seen (step { given 0x11#32 37#32 0#32 [held, held, held, held] with
        host := { moves := [.write 0x00 4 0x11#32], meanwhile := [[], [], [.write .arg0 5#32]], departs := [], rdata := 0#32 } })
      (fun t => (t.arg0, status t)) = some (37#32, 0x00110012#32) := by decide
theorem test_status_read_while_busy :
    seen (step { given 0x32#32 0#32 0#32 [held, held] with
        host := { moves := [.write 0x00 4 0x32#32], meanwhile := [[.read .status]], departs := [], rdata := 0#32 } })
      (fun t => t.host.rdata) = some 0x00320001#32 := by decide
theorem test_byte_write_refused : step (ready 0#32 0#32 [] (.write 0x00 1 0x32#32)) = .refused .noWindowRegister :=
  rfl
theorem test_detach_then_absent :
    seen (step (ready 0#32 0#32 [] .detach)) (fun t => t.attached) = some false := by decide
theorem test_attach_bad_table_refused :
    step { ready 0#32 0#32 [] (.attach { Config.nominal with volRef := Config.volRefEx.set 0 0#31 }) with
      attached := false } = .refused .volumeTableOutsideSpec := rfl
theorem test_detach_during_command :
    seen (step (leaving 1 (given 0x11#32 100#32 0#32 [held, held, held, held])))
      (fun t => (t.fsm, t.host.moves, t.log)) = some (.busy, [.detach], [.writeOk 23#8 0x01#8]) := by decide
theorem test_detach_after_abandoning :
    seen (step { leaving 0 (ready 0#32 0#32 [] .detach) with fsm := .busy, log := [.writeOk 23#8 0x01#8] })
      (fun t => (t.attached, t.fsm, t.log)) = some (false, .idle, [.writeOk 23#8 0x01#8]) := by decide
theorem test_unwritten_register_reads_periphInit (a : Byte) :
    State.reset.periph.read a = Config.periphInit[a.toNat]'a.isLt := rfl
theorem test_write_of_periphInit_unlists : ((zeros.write 10#8 0x01#8).write 10#8 0x00#8).cells = [] ∧
    (zeros.write 10#8 0x01#8).cells = [(10, 0x01#8)] := by decide
theorem test_listed_periphInit_not_canonical : ({ zeros with cells := [(10, 0x00#8)] } : Peripheral).wf = false := by
  decide
theorem test_program_line : (lineWrite .daiFormat 1#32).triple = (0x00000511#32, 1#32, 0#32) := by decide
theorem test_assembler_examples :
    (assembleLines [.volFwd 37#32, .volGet, .neg 44100#32 (.pcm 0x00#8), .nop, .neg 88200#32 .dsd32, .muteMode .never,
      .ctlWr .spdifChannel 3#32]).map CommandLine.triple =
      [(0x00000001#32, 37#32, 0#32), (0x00000010#32, 0#32, 0#32), (0x00000020#32, 44100#32, 0#32),
       (0x00000020#32, 88200#32, 3#32), (0x00000035#32, 0#32, 0#32), (0x00001311#32, 3#32, 0#32)] := by decide
theorem test_line_runs_to_done :
    seen (runProgram [⟨.volFwd, 16#32, 0#32⟩] State.reset) (fun t => (t.res0, t.arg0, t.host.rdata, t.host.moves)) =
      some (0x3FFFFFFF#32, 16#32, 0x00010002#32, []) := by decide
theorem test_no_line_starts_while_busy :
    seen (step { inside 0#32 0#32 [] with
        host := { State.reset.host with moves := [.readUntilDone, .write 0x04 4 1#32] } })
      (fun t => (t.arg0, t.status.overrun, t.host.moves)) =
      some (0#32, false, [.readUntilDone, .write 0x04 4 1#32]) := by decide

/-! Witnesses: for each statement with hypotheses, values that meet them, at the boundaries of its clauses. -/

theorem test_witness_DecodeReadsBackTheEncoding :
    (Instr.ctlRd 0x00#8).wellFormed = true ∧ (Instr.ctlWr 0x14#8).wellFormed = true ∧ Instr.neg.wellFormed = true := by
  decide
theorem test_witness_EncodingGivesBackTheDecodedWord :
    decode 0x00001411#32 = .ok (.ctlWr 0x14#8) ∧ decode 0x00000010#32 = .ok (.ctlRd 0x00#8) := by decide
theorem test_witness_StepRunsTheDecodedCommand :
    let s := given 0x1411#32 3#32 0#32 [held, held]
    s.attached = true ∧ s.fsm = .idle ∧ s.host.moves = .write 0x00 4 0x1411#32 :: [] ∧
      decode 0x1411#32 = .ok (.ctlWr 0x14#8) := by decide
theorem test_witness_AcceptanceLatchesAndClears :
    let s := given 0x32#32 0#32 0#32 []
    let b := { s with fsm := .busy }
    s.attached = true ∧ s.fsm = .idle ∧ s.host.moves = .write 0x00 4 0x32#32 :: [] ∧
      decode 0x32#32 = .ok .muteSet ∧ decode 0x00#32 = .error .badOpcode ∧
      b.attached = true ∧ b.fsm = .busy ∧ b.host.moves = .write 0x00 4 0x32#32 :: [] := by decide
theorem test_witness_IllegalWordEndsAtOnce :
    let s := given 0x1510#32 0#32 0#32 []
    s.attached = true ∧ s.fsm = .idle ∧ s.host.moves = .write 0x00 4 0x1510#32 :: [] ∧
      decode 0x1510#32 = .error .badCtlId := by decide
theorem test_witness_StatusAndDevstateBits : (inside 5#32 0#32 []).Inv ∧ ({ State.reset with arg1 := 5#32 } : State).Inv ∧
    ({ State.reset with arg1 := 5#32 } : State).fsm = .idle := by
  refine ⟨inv_of (by decide) (by decide) ?_ ?_ (by decide) (by decide) rfl,
    inv_of (by decide) (by decide) ?_ ?_ (by decide) (by decide) rfl, rfl⟩
  · exact ⟨by decide, by decide, by decide, by decide, by decide⟩
  · exact ⟨by decide, by decide, by decide⟩
  · exact ⟨by decide, by decide, by decide, by decide, by decide⟩
  · exact ⟨by decide, by decide, by decide⟩
theorem test_witness_OnlyAlignedWordsReachTheWindow :
    let moves := fun m => (ready 0#32 0#32 [] m).host.moves
    (ready 0#32 0#32 [] .detach).attached = true ∧ moves (.read 0x3C 4) = .read 0x3C 4 :: [] ∧
      moves .readUntilDone = .readUntilDone :: [] ∧ (ready 0#32 0#32 [] .readUntilDone).status.done = false ∧
      moves (.read 0x40 4) = .read 0x40 4 :: [] ∧ moves (.read 0x02 2) = .read 0x02 2 :: [] ∧
      moves (.write 0x3C 4 1#32) = .write 0x3C 4 1#32 :: [] ∧ moves (.write 0x3D 4 1#32) = .write 0x3D 4 1#32 :: [] := by
  decide
theorem test_witness_OperandRegistersAndBusyWrites :
    let s0 := ready 1#32 2#32 [] (.write 0x04 4 7#32)
    let s1 := ready 1#32 2#32 [] (.write 0x08 4 7#32)
    let s2 := given 0x32#32 1#32 2#32 [held, held]
    let s3 : State := { s2 with host := { s2.host with meanwhile := [[.read .status, .write .arg1 9#32]] } }
    s0.attached = true ∧ s0.fsm = .idle ∧ s0.host.moves = .write 0x04 4 7#32 :: [] ∧
      s1.host.moves = .write 0x08 4 7#32 :: [] ∧ ({ s1 with fsm := .busy } : State).fsm = .busy ∧
      seen (step s2) (fun t => (t.arg0, t.arg1)) = some (1#32, 2#32) ∧ s2.host.moves = .write 0x00 4 0x32#32 :: [] ∧
      s3.host.meanwhile = [.read .status, .write .arg1 9#32] :: [] ∧ (busyPoint s3).status.overrun = true ∧
      [WinAccess.read .status, .write .arg1 9#32] = [] ++ .read .status :: [.write .arg1 9#32] ∧
      (∀ q, WinAccess.read q ∉ [WinAccess.write .arg1 9#32]) ∧ s2.host.meanwhile = [] := by
  refine ⟨by decide, by decide, by decide, by decide, by decide, by decide, by decide, by decide, by decide, rfl, ?_, rfl⟩
  simp
theorem test_witness_ReadOnlyRegistersIgnoreWrites :
    (ready 0#32 0#32 [] (.write 0x0C 4 1#32)).host.moves = .write 0x0C 4 1#32 :: [] ∧
      (ready 0#32 0#32 [] (.write 0x3C 4 1#32)).host.moves = .write 0x3C 4 1#32 :: [] ∧
      (ready 0#32 0#32 [] (.write 0x3C 4 1#32)).attached = true ∧ 0x3C % 4 = 0 ∧ 0x0C ≤ 0x3C ∧ 0x3C < 0x40 := by decide
theorem test_witness_VolForwardIsAShiftedEntry : volForward Config.nominal 199 = 0 ∧ (0 : Nat) < 199 ∧ (198 : Nat) < 199 ∧
    volForward Config.nominal 198 = 0x00062B39 := by decide
theorem test_witness_VolInverseIsTheOctaveAndEntry :
    volInverse Config.nominal 1 = 199 ∧ volInverse Config.nominal (2 ^ 31 - 1) = 0 ∧ Config.nominal.entry 0 = 0x7FFFFFFF := by
  decide
theorem test_witness_VolumeRoundTripIsExact : slaveCfg.wellFormed = true ∧ slaveCfg.exactTable = true ∧
    volInverse slaveCfg (volForward slaveCfg 198) = 198 ∧ slaveCfg.volRef = Config.volRefEx := by decide
theorem test_witness_VolumeMappingsAreMonotone : slaveCfg.wellFormed = true ∧ slaveCfg.exactTable = true ∧
    slaveCfg.entry 0 / 2 ≤ slaveCfg.entry 15 ∧ (31 / 16 = 16 / 16 ∧ volForward slaveCfg 31 < volForward slaveCfg 16) ∧
    volForward slaveCfg 16 < volForward slaveCfg 15 ∧ volInverse slaveCfg 0x42D561B4 < volInverse slaveCfg 0x42D561B3 := by
  decide
theorem test_witness_VolFwdGivesTheMagnitude :
    (inside 199#32 0#32 []).opArg0.toNat ≤ 199 ∧ 199 < (inside 200#32 0#32 []).opArg0.toNat := by decide
theorem test_witness_CtlRdReadsOneRegister : (inside 0#32 0#32 [drawn 0x83#8]).portServes 1 ∧
    (⟨0x14#8, .dpllAuto, .enumerated, 25#8, 0x03#8, 0⟩ : TableRow) ∈ controlTable ∧
    (⟨0x02#8, .spdifForce, .enumerated, 8#8, 0x80#8, 7⟩ : TableRow) ∈ controlTable ∧
    (⟨0x0E#8, .outputRemap, .enumerated, 15#8, 0xFF#8, 0⟩ : TableRow) ∈ controlTable ∧
    (⟨0x13#8, .spdifChannel, .enumerated, 18#8, 0xFF#8, 0⟩ : TableRow) ∈ controlTable ∧
    seen (exec (.ctlRd 0x13#8) (inside 0#32 0#32 [drawn 0x88#8])) (fun t => t.res0) = some 3#32 :=
  ⟨serves_of (by decide), by decide⟩
theorem test_witness_CtlRdVolumeReadsFourRegisters : (inside 0#32 0#32 [held, held, held, held]).portServes 4 :=
  serves_of (by decide)
theorem test_witness_FailedReadDegradesToZero :
    (inside 0#32 0#32 [failing]).outcomeAt 0 = some .failed ∧
    (⟨0x05#8, .daiFormat, .enumerated, 10#8, 0x30#8, 4⟩ : TableRow) ∈ controlTable ∧
    (inside 0#32 0#32 [failing]).portServes 0 ∧ (inside 0#32 0#32 [held, held, held, failing]).portServes 3 ∧
    (inside 0#32 0#32 [held, held, held, failing]).outcomeAt 3 = some .failed :=
  ⟨by decide, by decide, serves_of (by decide), serves_of (by decide), by decide⟩
theorem test_witness_CtlRdNeverReportsATransportError :
    seen (exec (.ctlRd 0x14#8) (inside 0#32 0#32 [failing])) (fun t => t.fsm) = some .idle ∧
    seen (exec (.ctlRd 0x15#8) (inside 0#32 0#32 [])) (fun t => t.fsm) = some .idle ∧
    (inside 0#32 0#32 []).fsm = .busy := by decide
theorem test_witness_CtlWrFieldKeepsTheOtherBits :
    (⟨0x0F#8, .monoPhase, .enumerated, 17#8, 0x83#8, 0⟩ : TableRow) ∈ controlTable ∧
    Control.monoPhase ∉ [Control.volume, .mute, .outputRemap, .spdifChannel] ∧
    tableAllows .monoPhase (inside 0x83#32 0#32 [held, held]).opArg0.toNat ∧
    (inside 0x83#32 0#32 [held, held]).portServes 2 ∧
    (inside 0x83#32 0#32 [failing]).outcomeAt 0 = some .failed :=
  ⟨by decide, by decide, show 0x83 ∈ [0x00, 0x01, 0x02, 0x03, 0x80, 0x81, 0x82, 0x83] by decide, serves_of (by decide),
    by decide⟩
theorem test_witness_CtlWrVolumeWritesFourRegisters :
    (inside 199#32 0#32 []).opArg0.toNat ≤ 199 ∧ (inside 199#32 0#32 [held, held, held, held]).portServes 4 ∧
    (inside 0#32 0#32 [failing]).wroteAny = false ∧ (inside 0#32 0#32 [failing]).portServes 0 ∧
    (inside 0#32 0#32 [failing]).outcomeAt 0 = some .failed ∧
    (inside 0#32 0#32 [held, held, held, failing]).portServes 3 ∧
    (inside 0#32 0#32 [held, held, held, failing]).outcomeAt 3 = some .failed :=
  ⟨by decide, serves_of (by decide), by decide, serves_of (by decide), by decide, serves_of (by decide), by decide⟩
theorem test_witness_CtlWrWholeRegisterWritesOnce :
    (inside 3#32 0#32 [held]).portServes 1 ∧ (inside 3#32 0#32 [held]).opArg0.toNat ≤ 3 ∧
    (inside 7#32 0#32 [held]).portServes 1 ∧ (inside 7#32 0#32 [held]).opArg0.toNat ≤ 7 :=
  ⟨serves_of (by decide), by decide, serves_of (by decide), by decide⟩
theorem test_witness_CtlWrMuteRunsTheMutePlans :
    (inside 1#32 0#32 []).opArg0 = 1#32 ∧ (inside 0#32 0#32 []).opArg0 = 0#32 := by decide
theorem test_witness_CtlWrRefusesIllegalValues :
    controlOfId 0x00#8 = some .volume ∧ ¬ tableAllows .volume (inside 200#32 0#32 []).opArg0.toNat ∧
    tableAllows .volume (inside 199#32 0#32 []).opArg0.toNat ∧ (inside 199#32 0#32 []).fsm = .busy ∧
    seen (exec (.ctlWr 0x00#8) (inside 199#32 0#32 [failing])) (fun t => t.fsm) = some .idle :=
  ⟨by decide, show ¬ ((200 : Nat) ≤ 199) by decide, show (199 : Nat) ≤ 199 by decide, by decide, by decide⟩
theorem test_witness_WrittenControlReadsBack :
    let s := inside 199#32 0#32 [held, held, held, held, held, held, held, held]
    let u := inside 2#32 0#32 [held, held, held, held, held, held, held, held]
    controlOfId 0x00#8 = some .volume ∧ legalValue .volume s.opArg0 = true ∧ s.cfg.wellFormed = true ∧
      s.cfg.exactTable = true ∧ s.portMemoryLike 8 ∧ controlOfId 0x05#8 = some .daiFormat ∧
      legalValue .daiFormat u.opArg0 = true ∧ u.portMemoryLike 8 :=
  ⟨by decide, by decide, by decide, by decide, memoryLike_of (by decide), by decide, by decide, memoryLike_of (by decide)⟩
theorem test_witness_FamilySelection :
    slaveCfg.mode = .slave ∧ Config.nominal.mode = .master ∧ 44100 ∣ Config.nominal.ref44.toNat ∧
    48000 ∣ Config.nominal.ref48.toNat ∧ ¬ 48000 ∣ Config.nominal.ref44.toNat ∧ ¬ 11111 ∣ Config.nominal.ref44.toNat ∧
    ¬ 11111 ∣ Config.nominal.ref48.toNat ∧ Config.nominal.ref44.toNat ≠ 0 ∧ Config.nominal.ref48.toNat ≠ 0 ∧
    formatOperand 0#32 ≠ none ∧ selectClock Config.nominal (11111#32).toNat = none := by decide
theorem test_witness_DivisorRoundsHalvesUp :
    clockDivisor 22579200 102400 = 221 ∧ clockDivisor 22579200 2205000 = 10 ∧
    formatOperand 1#32 = some (.dsd 8) ∧ selectClock slaveCfg (0#32).toNat ≠ none ∧ bitClock slaveCfg 0#32 (.dsd 8) = 0 := by
  decide
theorem test_witness_ZeroDivisorIsRejectedInMasterMode :
    formatOperand 0#32 = some (.pcm 0#8) ∧
    selectClock Config.nominal (22579200#32).toNat = some (.external44k1, 22579200, some .family44k1) ∧
    bitClock Config.nominal 22579200#32 (.pcm 0#8) ≠ 0 ∧
    2 * 22579200 < bitClock Config.nominal 22579200#32 (.pcm 0#8) ∧
    slaveCfg.mode = .slave ∧ bitClock slaveCfg 1#32 (.pcm 0#8) ≠ 0 ∧
    selectClock Config.nominal (705600#32).toNat = some (.external44k1, 22579200, some .family44k1) ∧
    bitClock Config.nominal 705600#32 (.pcm 0#8) = 2 * 22579200 ∧
    selectClock slaveCfg (1#32).toNat = some (.slaveUndefined, 0, none) := by decide
theorem test_witness_BitClockIsExact :
    (0x00000003#32).toNat % 256 = 3 ∧ (0x0000FF00#32).toNat < 2 ^ 16 ∧ formatOperand 0x0000FF00#32 = some (.pcm 0xFF#8) ∧
    formatOperand 0x00000004#32 = none ∧ formatOperand 0x00010000#32 = none ∧ Config.nominal.bclkRatio ≠ 0#32 ∧
    ({ Config.nominal with bclkRatio := 0#32 } : Cfg).bclkRatio = 0#32 ∧ (0x00000001#32).toNat % 256 = 1 ∧
    (0x00000002#32).toNat % 256 = 2 := by decide
theorem test_witness_NegErrorsComeBeforeAnyTransaction :
    planClock Config.nominal 44100#32 4#32 = .error .badFormat ∧
    planClock Config.nominal 0#32 0#32 = .error .unsupportedRate ∧
    planClock slaveCfg 0#32 1#32 = .error .divideByZero ∧
    planClock Config.nominal 22579200#32 0#32 = .error .divisorZero := by decide
theorem test_witness_NegWithoutRelockReportsThePlan :
    planClock slaveCfg 11111#32 3#32 = .ok ⟨0, .slaveUndefined, none, 0x00056CE0, 0⟩ ∧
    planClock Config.nominal 88200#32 0#32 = .ok ⟨22579200, .external44k1, some .family44k1, 5644800, 4⟩ ∧
    ({ inside 88200#32 0#32 [] with ds := { State.reset.ds with lastClass := some .family44k1 } } : State).ds.lastClass =
      some .family44k1 := by decide
theorem test_witness_NegRelockPulsesAndRecordsTheFamily :
    let s := inside 48000#32 0#32 [drawn 0x08#8, held, drawn 0x28#8, held]
    planClock s.cfg s.opArg0 s.opArg1 = .ok ⟨24576000, .external48k, some .family48k, 3072000, 8⟩ ∧
      s.ds.lastClass ≠ some .family48k ∧ s.portServes 4 :=
  ⟨by decide, by decide, serves_of (by decide)⟩
theorem test_witness_FailedRelockKeepsTheLastFamily :
    let s := inside 44100#32 0#32 [failing]
    let t := inside 44100#32 0#32 [held, held, held, failing]
    planClock s.cfg s.opArg0 s.opArg1 = .ok ⟨22579200, .external44k1, some .family44k1, 2822400, 8⟩ ∧
      s.ds.lastClass ≠ some .family44k1 ∧ s.wroteAny = false ∧ s.portServes 0 ∧ s.outcomeAt 0 = some .failed ∧
      t.portServes 3 ∧ t.outcomeAt 3 = some .failed :=
  ⟨by decide, by decide, by decide, serves_of (by decide), by decide, serves_of (by decide), by decide⟩
theorem test_witness_StreamStartUnmutesIfNothingHoldsTheMute :
    (inside 0#32 0#32 [held, held]).ds.forceMute = false ∧ (inside 0#32 0#32 [held, held]).portServes 2 ∧
    ({ inside 0#32 0#32 [] with ds := { State.reset.ds with forceMute := true } } : State).ds.forceMute = true :=
  ⟨by decide, serves_of (by decide), by decide⟩
theorem test_witness_StreamStopMutesUnderTheIdlePolicy :
    (inside 0#32 0#32 [held, held]).ds.muteMode = .onIdle ∧ (inside 0#32 0#32 [held, held]).portServes 2 ∧
    ({ inside 0#32 0#32 [] with ds := { State.reset.ds with muteMode := .never } } : State).ds.muteMode = .never :=
  ⟨by decide, serves_of (by decide), by decide⟩
theorem test_witness_MuteCommandsApplyEffectiveMute :
    (inside 0#32 0#32 [held, held]).portServes 2 ∧ (inside 0#32 0#32 [held, held]).opArg0 = 0#32 ∧
    (inside 1#32 0#32 [held, held]).portServes 2 ∧ (inside 1#32 0#32 [held, held]).opArg0 = 1#32 :=
  ⟨serves_of (by decide), by decide, serves_of (by decide), by decide⟩
theorem test_witness_MuteModeRefusesOtherWords : 1 < (inside 2#32 0#32 []).opArg0.toNat := by decide
theorem test_witness_FmtSpdifSwitchesUnderMute :
    (inside 0#32 0#32 [held, held, held, held, held, held]).ds.eff = true ∧
    (inside 0#32 0#32 [held, held, held, held, held, held]).portServes 6 ∧
    ({ inside 0#32 0#32 [held, held, held, held, held, held, held, held] with
      ds := { State.reset.ds with streamMuted := false } } : State).ds.eff = false ∧
    ({ inside 0#32 0#32 [held, held, held, held, held, held, held, held] with
      ds := { State.reset.ds with streamMuted := false } } : State).portServes 8 :=
  ⟨by decide, serves_of (by decide), by decide, serves_of (by decide)⟩
theorem test_witness_SequencerUpdatesDeviceStateFirst :
    seen (exec .muteMode (inside 0#32 0#32 [failing])) (fun t => t.ds.muteMode) = some .never ∧
    seen (exec .muteMode (inside 1#32 0#32 [failing])) (fun t => t.ds.muteMode) = some .onIdle ∧
    seen (exec .streamStart (inside 0#32 0#32 [failing])) (fun t => t.ds.streamMuted) = some false := by decide
theorem test_witness_SequencerKeepsTheMuteBitReflected :
    let s : State := { inside 0#32 0#32 [held, held] with periph := { zeros with cells := [(10, 0x01#8)] } }
    s.fsm = .busy ∧ s.muteReflected ∧
      seen (exec .muteClr s) (fun t => (t.fsm, t.status.report, t.muteBit)) = some (.idle, .ok, true) :=
  ⟨by decide, show true = true from rfl, by decide⟩
theorem test_witness_SpdifMutesBeforeItReconfigures :
    seen (exec .fmtSpdif (inside 0#32 0#32 [held, held, held, failing])) (fun t => t.log) =
      some ([.readOk 10#8 0#8, .writeOk 10#8 1#8] ++ .readOk 8#8 0#8 :: [.writeFailed 8#8 0x80#8]) ∧
    (PortEvent.readOk 8#8 0#8).reg = 8#8 ∧ (PortEvent.writeFailed 8#8 0x80#8).reg = 8#8 := by decide
theorem test_witness_MuteBitAfterAFailure :
    seen (exec .muteSet (inside 0#32 0#32 [failing])) (fun t => (t.fsm, t.status.report)) = some (.idle, .transportRead) ∧
    seen (exec .fmtSpdif (inside 0#32 0#32 [held, held, failing])) (fun t => (t.fsm, t.status.report, t.status.failAddr)) =
      some (.idle, .transportRead, 8#8) ∧
    seen (exec .fmtSpdif (inside 0#32 0#32 [failing])) (fun t => (t.fsm, t.status.report, t.status.failAddr)) =
      some (.idle, .transportRead, 10#8) := by decide
theorem test_witness_NoCommandChangesItsInputs :
    seen (exec .neg (inside 48000#32 0#32 [held, held, held, held])) (fun t => t.opArg0) = some 48000#32 ∧
    seen (exec .neg (leaving 2 (inside 48000#32 0#32 [held, held, held, held]))) (fun t => t.host.moves) =
      some [.detach] := by decide
theorem test_witness_ResultsChangeOnlyOnSuccess :
    (inside 44100#32 0#32 []).fsm = .busy ∧
    seen (exec .neg (inside 44100#32 0#32 [held, failing])) (fun t => (t.fsm, t.status.report, results t)) =
      some (.idle, .transportWrite, results State.reset) ∧
    seen (exec .neg (inside 44100#32 0#32 [silent])) (fun t => (t.fsm, results t)) =
      some (.busy, results State.reset) := by decide
theorem test_witness_DeviceStateFieldsHaveTheirWriters :
    seen (exec (.ctlWr 0x01#8) (inside 1#32 0#32 [held, held])) (fun t => t.ds.forceMute) = some true ∧
    seen (exec .neg (inside 48000#32 0#32 [held, held, held, held])) (fun t => t.ds.lastClass) = some (some .family48k) ∧
    (.neg : Instr) ∉ [Instr.muteSet, .muteClr, .ctlWr 0x01#8] := by decide
theorem test_witness_CommandsStayWithinTheirPlans :
    seen (exec .fmtSpdif { inside 0#32 0#32 [held, held, held, held, held, held, held, held] with
      ds := { State.reset.ds with streamMuted := false } }) (fun t => t.log.length) = some 8 ∧
    seen (exec (.ctlRd 0x14#8) (inside 0#32 0#32 [failing])) (fun t => t.log) = some [.readFailed 25#8] ∧
    commandReaches (.ctlRd 0x14#8) = [25#8] := by decide
theorem test_witness_DegradedIsSetByReadsOnly :
    seen (exec (.ctlRd 0x05#8) (inside 0#32 0#32 [failing])) (fun t => t.status.degraded) = some true := by decide
theorem test_witness_PartialMeansAWriteSucceededFirst :
    (inside 5#32 0#32 []).fsm = .busy ∧ (inside 5#32 0#32 []).wroteAny = false ∧
    seen (exec (.ctlWr 0x00#8) (inside 5#32 0#32 [held, failing])) (fun t => (t.fsm, t.status.isPartial)) =
      some (.idle, true) ∧
    seen (exec (.ctlWr 0x00#8) (inside 5#32 0#32 [failing])) (fun t => (t.fsm, t.status.isPartial)) =
      some (.idle, false) ∧
    seen (step (given 0x00#32 0#32 0#32 [])) (fun t => t.status.isPartial) = some false := by decide
theorem test_witness_TransportErrorsArePrecise :
    seen (exec .muteSet (inside 0#32 0#32 [held, failing])) (fun t => (t.fsm, t.status.report.isTransport)) =
      some (.idle, true) ∧
    seen (exec (.ctlWr 0x13#8) (inside 7#32 0#32 [failing])) (fun t => t.log) = some ([] ++ [.writeFailed 18#8 0x80#8]) ∧
    seen (exec .fmtSpdif (inside 0#32 0#32 [held, held, failing])) (fun t => t.log) =
      some ([] ++ [.readOk 10#8 0x00#8, .writeOk 10#8 0x01#8, .readFailed 8#8]) := by decide
theorem test_witness_SilentPortLeavesTheBlockBusy :
    seen (exec .muteSet (inside 0#32 0#32 [silent])) (fun t => t.fsm) = some .busy ∧
    seen (exec .muteSet (leaving 1 (inside 0#32 0#32 [held]))) (fun t => (t.fsm, t.host.moves)) = some (.busy, [.detach]) ∧
    seen (exec (.ctlWr 0x00#8) (inside 100#32 0#32 [held, silent])) (fun t => (t.fsm, t.log)) =
      some (.busy, [] ++ [.writeOk 23#8 0x01#8] ++ [.writeUnanswered 22#8 0xAE#8]) ∧
    (PortEvent.writeUnanswered 22#8 0xAE#8).isUnanswered = true ∧
    (inside 0#32 0#32 [silent]).outcomeAt 0 = some .never ∧ (inside 0#32 0#32 []).host.moves = [] := by decide
theorem test_witness_IgnoredOperandsHaveNoEffect :
    seen (exec (.ctlRd 0x05#8) (inside 1#32 2#32 [held])) (fun t => t.res0) = some 0#32 := by decide
theorem test_witness_AttachAndDetachMoves :
    let s : State := { ready 0#32 0#32 [] (.attach slaveCfg) with attached := false }
    s.host.moves = .attach slaveCfg :: [] ∧ s.attached = false ∧ slaveCfg.wellFormed = true ∧
      (ready 0#32 0#32 [] .detach).host.moves = .detach :: [] ∧ (ready 0#32 0#32 [] .detach).attached = true := by decide
theorem test_witness_DetachAbandonsTheCommand :
    let s := fun k => leaving k (inside 199#32 0#32 [held, held, held])
    (∀ k < 4, (s k).attached = true ∧ (s k).fsm = .busy ∧ (s k).opArg0.toNat ≤ 199 ∧ (s k).outcomeAt k = none ∧
      (s k).host.moves = [] ∧ seen (exec (.ctlWr 0x00#8) (s k)) (fun t => (t.host.moves, t.log.length)) =
        some ([.detach], k)) ∧
      (s 0).portServes 0 ∧ (s 1).portServes 1 ∧ (s 2).portServes 2 ∧ (s 3).portServes 3 :=
  ⟨by decide, serves_of (by decide), serves_of (by decide), serves_of (by decide), serves_of (by decide)⟩
theorem test_witness_EveryStepKeepsTheInvariant :
    (ready 199#32 0#32 [held, held, failing] (.write 0x00 4 0x11#32)).Inv ∧
    seen (step (ready 199#32 0#32 [held, held, failing] (.write 0x00 4 0x11#32))) (fun t => t.status.isPartial) =
      some true := by
  refine ⟨inv_of (by decide) (by decide) ?_ ?_ (by decide) (by decide) rfl, by decide⟩
  · exact ⟨by decide, by decide, by decide, by decide, by decide⟩
  · exact ⟨by decide, by decide, by decide⟩

end Sys2Proof.Tests
end

section
/-! Proofs on the family 10_state: what a step can do, said once, and the invariant it keeps (spec 10_state.md rules R23
to R40, 60_exceptions.md rules R241, R245). -/

namespace Sys2Proof.Machine

/-! What a host write and a host move can do. -/

/-- What a host write of `w` to a register can do (R23, R24, R91, R97): while BUSY, a dropped write; while IDLE, a word
that is no command, a command's run, a new operand, or nothing. -/
inductive WriteRun (s : State) : WinReg → Word → State → Prop where
  | busy (r : WinReg) (w : Word) (hb : s.fsm = .busy) : WriteRun s r w (busyAccess (.write r w) s)
  | illegal (w : Word) (e : DecodeError) (hi : s.fsm = .idle) (hd : decode w = .error e) :
      WriteRun s .cmd w (endCommand (decodeReport e) 0#8 (busyPoint (accept w s)))
  | command (w : Word) (i : Instr) (t : State) (hi : s.fsm = .idle) (hd : decode w = .ok i)
      (h : CommandRun i (busyPoint (accept w s)) t) : WriteRun s .cmd w t
  | arg0 (w : Word) (hi : s.fsm = .idle) : WriteRun s .arg0 w { s with arg0 := w }
  | arg1 (w : Word) (hi : s.fsm = .idle) : WriteRun s .arg1 w { s with arg1 := w }
  | ignored (r : WinReg) (w : Word) (hr : r.droppedWhileBusy = false) : WriteRun s r w s

/-- A write to `CMD` of an idle block always answers a next state. -/
theorem runCommand_run (w : Word) {s : State} (hi : s.fsm = .idle) :
    ∃ t, runCommand w s = .next t ∧ WriteRun s .cmd w t := by
  unfold runCommand
  cases hd : decode w with
  | error e => exact ⟨_, rfl, .illegal w e hi hd⟩
  | ok i =>
    obtain ⟨t, ht, h⟩ := exec_run i (busyPoint (accept w s))
    exact ⟨t, ht, .command w i t hi hd h⟩

/-- A host write always answers a next state, which one of the cases of `WriteRun` describes. -/
theorem windowWrite_run (r : WinReg) (w : Word) (s : State) :
    ∃ t, windowWrite r w s = .next t ∧ WriteRun s r w t := by
  unfold windowWrite
  split
  · next hf => exact ⟨_, rfl, .busy r w hf⟩
  · next hf =>
    cases r with
    | cmd => exact runCommand_run w hf
    | arg0 => exact ⟨_, rfl, .arg0 w hf⟩
    | arg1 => exact ⟨_, rfl, .arg1 w hf⟩
    | _ => exact ⟨s, rfl, .ignored _ w rfl⟩

/-- What a host move that is not refused can do (R60, R100, R270, R272). -/
inductive MoveRun (s : State) : HostMove → State → Prop where
  | attach (c : Cfg) (hc : c.wellFormed = true) : MoveRun s (.attach c) (attachBlock c s)
  | detach : MoveRun s .detach (detachBlock s)
  | read (offset size : Nat) (r : WinReg) (hr : windowRegister offset size = some r) :
      MoveRun s (.read offset size) (s.setRdata (windowRead r s))
  | poll : MoveRun s .readUntilDone (pollStatus s)
  | write (offset size : Nat) (w : Word) (r : WinReg) (t : State) (hr : windowRegister offset size = some r)
      (h : WriteRun s r w t) : MoveRun s (.write offset size w) t

/-- The case behind the answer of a host move. -/
theorem hostMove_run {m : HostMove} {s t : State} (h : hostMove m s = .next t) : MoveRun s m t := by
  cases m with
  | attach c =>
    simp only [hostMove] at h
    split at h
    · cases h
    · split at h
      · next hc => cases h; exact .attach c hc
      · cases h
  | detach =>
    simp only [hostMove] at h
    split at h <;> cases h
    exact .detach
  | readUntilDone =>
    simp only [hostMove] at h
    split at h <;> cases h
    exact .poll
  | read offset size =>
    simp only [hostMove] at h
    split at h
    · cases hr : windowRegister offset size with
      | none => rw [hr] at h; cases h
      | some r => rw [hr] at h; cases h; exact .read offset size r hr
    · cases h
  | write offset size w =>
    simp only [hostMove] at h
    split at h
    · cases hr : windowRegister offset size with
      | none => rw [hr] at h; cases h
      | some r =>
        obtain ⟨u, hu, hw⟩ := windowWrite_run r w s
        rw [hr] at h
        cases hu.symm.trans h
        exact .write offset size w r t hr hw
    · cases h

/-- A step is the host's next move; with none left it leaves an idle block as it is (R273, R290). -/
theorem step_run {s t : State} (h : step s = .next t) :
    (s.host.moves = [] ∧ t = s) ∨ ∃ m rest, s.host.moves = m :: rest ∧ MoveRun (s.setMoves rest) m t := by
  simp only [step, engineStep] at h
  split at h
  · next m rest hm => exact .inr ⟨m, rest, hm, hostMove_run h⟩
  · next hm =>
    split at h <;> cases h
    exact .inl ⟨hm, rfl⟩

/-! What the negotiator's plan can hold. -/

/-- The reference of a clock family (R10, R182). -/
def familyRef (c : Cfg) : Family → Word
  | .family44k1 => c.ref44
  | .family48k => c.ref48

/-- A family is selected only where its reference is enabled (R182). -/
theorem selectMaster_some {c : Cfg} {rate n : Nat} {src : ClockSource} {f : Family}
    (h : selectMaster c rate = some (src, n, f)) : familyRef c f ≠ 0#32 ∧ src ≠ .internal := by
  have enabled {w : Word} (hw : w.toNat ≠ 0) : w ≠ 0#32 := fun h0 => hw (by simp [h0])
  unfold selectMaster at h
  split at h
  · cases h
  · split at h
    · next h44 => cases h; exact ⟨enabled h44.1, by simp⟩
    · split at h
      · next h48 => cases h; exact ⟨enabled h48.1, by simp⟩
      · cases h

/-- A family is selected only in Master mode, with its reference enabled, and the source is never `Internal` (R183,
R192). -/
theorem selectClock_some {c : Cfg} {rate n : Nat} {src : ClockSource} {fam : Option Family}
    (h : selectClock c rate = some (src, n, fam)) :
    src ≠ .internal ∧ ∀ f, fam = some f → c.mode = .master ∧ familyRef c f ≠ 0#32 := by
  unfold selectClock at h
  split at h
  · cases h; simp
  · next hm =>
    obtain ⟨⟨src', n', f'⟩, hs, he⟩ := Option.map_eq_some_iff.1 h
    cases he
    obtain ⟨href, hsrc⟩ := selectMaster_some hs
    exact ⟨hsrc, fun f hf => by cases hf; exact ⟨hm, href⟩⟩

/-- The source and the family of a plan are those its rate selects (R189, R190). -/
theorem planClock_ok {c : Cfg} {rate format : Word} {p : ClockPlan} (h : planClock c rate format = .ok p) :
    selectClock c rate.toNat = some (p.source, p.sysclk, p.family) := by
  unfold planClock at h
  split at h
  · cases h
  · split at h
    · cases h
    · next hs =>
      dsimp only at h
      split at h
      · cases h
      · split at h <;> cases h
        exact hs

/-- `RES4` of a plan has bits 31:3 clear and no code of `Internal` (R189, R192). -/
theorem planWord_legal (relock : Bool) {source : ClockSource} (h : source ≠ .internal) :
    (planWord relock source).toNat < 8 ∧ (planWord relock source).toNat % 4 ≠ 2 := by
  cases source with
  | internal => exact absurd rfl h
  | _ => cases relock <;> decide

/-! The invariant in two parts: what holds also in the middle of a command, and what `STATUS` and `DEVSTATE` show. -/

/-- DeviceState fits the configuration when the last family, if any, is one that Master mode could select. -/
theorem State.classCoherent_iff (s : State) :
    s.classCoherent ↔ ∀ f, s.ds.lastClass = some f → s.cfg.mode = .master ∧ familyRef s.cfg f ≠ 0#32 := by
  unfold State.classCoherent
  constructor
  · rintro ⟨hslave, h44, h48⟩ f hf
    have hm : s.cfg.mode = .master := by
      cases hm : s.cfg.mode with
      | master => rfl
      | slave => rw [hslave hm] at hf; cases hf
    cases f with
    | family44k1 => exact ⟨hm, h44 hf⟩
    | family48k => exact ⟨hm, h48 hf⟩
  · intro h
    refine ⟨fun hm => ?_, fun hf => (h _ hf).2, fun hf => (h _ hf).2⟩
    cases hc : s.ds.lastClass with
    | none => rfl
    | some f => rw [(h f hc).1] at hm; cases hm

/-- The part of the invariant that every transaction and every result write of a command keeps. -/
structure State.StoreInv (s : State) : Prop where
  periph : s.periph.wf = true
  cfg : s.cfg.wellFormed = true
  classes : s.classCoherent
  res4 : s.res4.toNat < 8 ∧ s.res4.toNat % 4 ≠ 2
  kept : s.logKept

theorem State.inv_iff (s : State) :
    s.Inv ↔ s.StoreInv ∧ s.statusCoherent ∧ (s.fsm = .idle → s.devstate = s.ds.image) :=
  ⟨fun ⟨hp, hc, hs, hd, hi, hr, hl⟩ => ⟨⟨hp, hc, hd, hr, hl⟩, hs, hi⟩,
    fun ⟨⟨hp, hc, hd, hr, hl⟩, hs, hi⟩ => ⟨hp, hc, hs, hd, hi, hr, hl⟩⟩

/-- A `STATUS` that reports nothing is coherent, BUSY or not. -/
theorem State.statusCoherent_of_clear {s : State} (hd : s.status.done = false) (hp : s.status.isPartial = false)
    (hg : s.status.degraded = false) (hr : s.status.report = .ok) (ha : s.status.failAddr = 0#8) :
    s.statusCoherent := by
  simp [State.statusCoherent, hd, hp, hg, hr, ha]

/-- The invariant while BUSY: nothing but the stored part and a clear `STATUS` is asked. -/
theorem State.inv_of_busy {s : State} (hb : s.fsm = .busy) (hs : s.StoreInv) (hc : s.statusCoherent) : s.Inv :=
  s.inv_iff.2 ⟨hs, hc, fun hi => by rw [hb] at hi; cases hi⟩

/-! Each part of a command keeps its part of the invariant. -/

/-- The field of DeviceState a command's rule updates, if any, and the commands whose rule it is (R27 to R29). -/
theorem DsStep.writes {i : Instr} {s : State} {d : DeviceState} (h : DsStep i s d) :
    d = s.ds ∨
    (i ∈ [Instr.muteSet, .muteClr, .ctlWr 0x01#8] ∧ ∃ b, d = { s.ds with forceMute := b }) ∨
    (i ∈ [Instr.streamStart, .streamStop] ∧ ∃ b, d = { s.ds with streamMuted := b }) ∨
    (i = .muteMode ∧ ∃ m, d = { s.ds with muteMode := m }) := by
  cases i with
  | ctlWr ctl =>
    rcases h with h | ⟨rfl, hb⟩
    · exact .inl h
    · exact .inr (.inl ⟨by simp, hb⟩)
  | muteSet | muteClr => exact .inr (.inl ⟨by simp, _, h⟩)
  | streamStart | streamStop => exact .inr (.inr (.inl ⟨by simp, _, h⟩))
  | muteMode =>
    simp only [DsStep] at h
    cases hm : muteModeOperand s.opArg0 with
    | none => rw [hm] at h; exact .inl h
    | some m => rw [hm] at h; exact .inr (.inr (.inr ⟨rfl, m, h⟩))
  | volFwd | volInv | ctlRd | neg | fmtSpdif => exact .inl h

/-- The updates of DeviceState by a command's rule record no family. -/
theorem DsStep.lastClass {i : Instr} {s : State} {d : DeviceState} (h : DsStep i s d) :
    d.lastClass = s.ds.lastClass := by
  rcases h.writes with rfl | ⟨-, b, rfl⟩ | ⟨-, b, rfl⟩ | ⟨-, m, rfl⟩ <;> rfl

theorem Effect.keepsStore {regs : List Byte} {n : Nat} {new : List PortEvent} {s t : State}
    (h : Effect regs n new s t) (hs : s.StoreInv) : t.StoreInv where
  periph := h.wf hs.periph
  cfg := by rw [h.cfg]; exact hs.cfg
  classes := by simpa only [State.classCoherent, h.cfg, h.ds] using hs.classes
  res4 := by rw [h.res4]; exact hs.res4
  kept := h.kept hs.kept

theorem State.StoreInv.setDs {s : State} {d : DeviceState} (h : s.StoreInv) (hd : d.lastClass = s.ds.lastClass) :
    (s.setDs d).StoreInv where
  periph := h.periph
  cfg := h.cfg
  classes := by simpa only [State.classCoherent, State.setDs, hd] using h.classes
  res4 := h.res4
  kept := h.kept

/-- The transactions of a command keep a clear `STATUS` clear. -/
theorem Effect.keepsInv {regs : List Byte} {n : Nat} {new : List PortEvent} {s t : State}
    (h : Effect regs n new s t) (hb : s.fsm = .busy) (hi : s.Inv) : t.Inv := by
  obtain ⟨hs, ⟨hclear, -⟩, -⟩ := s.inv_iff.1 hi
  obtain ⟨hd, hp, hg, hr, ha⟩ := hclear hb
  exact State.inv_of_busy (h.fsm.trans hb) (h.keepsStore hs)
    (State.statusCoherent_of_clear (h.status_done.trans hd) (h.status_isPartial.trans hp) (h.status_degraded.trans hg)
      (h.status_report.trans hr) (h.status_failAddr.trans ha))

/-- DeviceState's update at a command's start keeps the invariant: `DEVSTATE` is current while IDLE only. -/
theorem DsStep.keepsInv {i : Instr} {s : State} {d : DeviceState} (h : DsStep i s d) (hb : s.fsm = .busy)
    (hi : s.Inv) : (s.setDs d).Inv := by
  obtain ⟨hs, hc, -⟩ := s.inv_iff.1 hi
  exact State.inv_of_busy hb (hs.setDs h.lastClass) hc

/-- What the result writes of a command can be: none, `RES0`, the degraded read, or a clock plan with the family it
recorded, if any (R96, R150, R189). -/
theorem ResultStep.writes {i : Instr} {e : Report} {addr : Byte} {u v : State} (h : ResultStep i e addr u v) :
    v = u ∨ (∃ x, v = u.setRes0 x) ∨ (e = .ok ∧ v = u.setDegraded.setRes0 0#32) ∨
      (i = .neg ∧ ∃ p relock d, planClock u.cfg u.opArg0 u.opArg1 = .ok p ∧ v = (u.setDs d).reportPlan p relock ∧
        (d = u.ds ∨ ∃ f, p.family = some f ∧ d = { u.ds with lastClass := some f })) := by
  cases i <;> simp only [ResultStep] at h
  case volFwd => rcases h with ⟨-, hx⟩ | ⟨-, hv⟩; exacts [.inr (.inl hx), .inl hv]
  case volInv => rcases h with ⟨-, hx⟩ | ⟨-, hv⟩; exacts [.inr (.inl hx), .inl hv]
  case ctlRd ctl =>
    rcases h with ⟨he, ⟨-, hx⟩ | hv⟩ | ⟨-, hv⟩
    exacts [.inr (.inl hx), .inr (.inr (.inl ⟨he, hv⟩)), .inl hv]
  case neg =>
    rcases h with ⟨-, p, relock, hp, ⟨-, -, hv⟩ | ⟨-, f, hf, -, hv⟩⟩ | ⟨-, hv⟩
    · exact .inr (.inr (.inr ⟨rfl, p, relock, u.ds, hp, hv, .inl rfl⟩))
    · exact .inr (.inr (.inr ⟨rfl, p, relock, _, hp, hv, .inr ⟨f, hf, rfl⟩⟩))
    · exact .inl hv
  all_goals exact .inl h

/-- A clock plan's words and the family it chose keep the stored part: the family is one that was selected in Master
mode, and `RES4` has a legal code. -/
theorem State.StoreInv.reportPlan {u : State} {p : ClockPlan} {d : DeviceState} (relock : Bool) (h : u.StoreInv)
    (hp : planClock u.cfg u.opArg0 u.opArg1 = .ok p)
    (hd : d = u.ds ∨ ∃ f, p.family = some f ∧ d = { u.ds with lastClass := some f }) :
    ((u.setDs d).reportPlan p relock).StoreInv := by
  obtain ⟨hsrc, hfam⟩ := selectClock_some (planClock_ok hp)
  refine ⟨h.periph, h.cfg, ?_, planWord_legal relock hsrc, h.kept⟩
  rcases hd with rfl | ⟨f, hf, rfl⟩
  · exact h.classes
  · refine (State.classCoherent_iff _).2 fun g hg => ?_
    cases hg
    exact hfam f hf

theorem ResultStep.keepsStore {i : Instr} {e : Report} {addr : Byte} {u v : State} (h : ResultStep i e addr u v)
    (hs : u.StoreInv) : v.StoreInv := by
  have ⟨hp, hc, hd, hr, hk⟩ := hs
  rcases h.writes with rfl | ⟨x, rfl⟩ | ⟨-, rfl⟩ | ⟨-, p, relock, d, hplan, rfl, hfam⟩
  · exact hs
  · exact ⟨hp, hc, hd, hr, hk⟩
  · exact ⟨hp, hc, hd, hr, hk⟩
  · exact hs.reportPlan relock hplan hfam

/-- DEGRADED is set before a command's end only by a read that degrades, which reports no error (R150). -/
theorem ResultStep.degraded {i : Instr} {e : Report} {addr : Byte} {u v : State} (h : ResultStep i e addr u v)
    (hu : u.status.degraded = false) (hv : v.status.degraded = true) : e = .ok := by
  rcases h.writes with rfl | ⟨x, rfl⟩ | ⟨he, -⟩ | ⟨-, p, relock, d, -, rfl, -⟩
  · rw [hu] at hv; cases hv
  · rw [State.setRes0_status, hu] at hv; cases hv
  · exact he
  · rw [show ((u.setDs d).reportPlan p relock).status = u.status from rfl, hu] at hv; cases hv

/-- FAIL_ADDR is an address only with a TRANSPORT report or DEGRADED (R25). -/
theorem EndStep.failAddr {i : Instr} {new : List PortEvent} {e : Report} {addr : Byte} {u v : State}
    (h : EndStep i new e addr) (hr : ResultStep i e addr u v) (ha : addr ≠ 0#8) :
    e.isTransport = true ∨ v.status.degraded = true := by
  cases h with
  | clean => exact absurd rfl ha
  | readFailed => exact .inl rfl
  | writeFailed => exact .inl rfl
  | degraded _ ctl pre _ _ hi =>
    subst hi
    rcases hr with ⟨-, ⟨h0, -⟩ | rfl⟩ | ⟨he, -⟩
    · exact absurd h0 ha
    · exact .inr rfl
    · cases he

/-- No command ends with UNSUPPORTED_OP (R246). -/
theorem EndStep.report_ne_unsupportedOp {i : Instr} {new : List PortEvent} {e : Report} {addr : Byte}
    (h : EndStep i new e addr) : e ≠ .unsupportedOp := by
  cases h with
  | clean _ _ _ hu => exact hu
  | _ => simp

/-- The end of a command gives the whole invariant, given the stored part and a report that fits DEGRADED and the
address (R241, R245). -/
theorem endCommand_inv {e : Report} {addr : Byte} {v : State} (hs : v.StoreInv)
    (hg : v.status.degraded = true → e = .ok) (ha : addr ≠ 0#8 → e.isTransport = true ∨ v.status.degraded = true)
    (hu : e ≠ .unsupportedOp) : (endCommand e addr v).Inv := by
  have hstatus : (endCommand e addr v).statusCoherent :=
    ⟨nofun, fun hp => Bool.and_eq_true_iff.1 hp, hg, ha, hu⟩
  exact (State.inv_iff _).2 ⟨⟨hs.periph, hs.cfg, hs.classes, hs.res4, hs.kept⟩, hstatus, fun _ => rfl⟩

/-- Every run of a command keeps the invariant. -/
theorem CommandRun.keepsInv {i : Instr} {s t : State} (h : CommandRun i s t) (hb : s.fsm = .busy) (hi : s.Inv) :
    t.Inv := by
  cases h with
  | hung d pre e u hd g ok he => exact g.keepsInv hb (hd.keepsInv hb hi)
  | left d new u hd g ok => exact g.keepsInv hb (hd.keepsInv hb hi)
  | ended d new u v e addr hd g hr he =>
    have hu : u.Inv := g.keepsInv hb (hd.keepsInv hb hi)
    obtain ⟨hs, ⟨hclear, -⟩, -⟩ := u.inv_iff.1 hu
    obtain ⟨-, -, hg, -, -⟩ := hclear (g.fsm.trans hb)
    exact endCommand_inv (hr.keepsStore hs) (hr.degraded hg) (he.failAddr hr) he.report_ne_unsupportedOp

/-! Each host move keeps the invariant. -/

/-- The host's accesses while BUSY show in nothing the invariant speaks of. -/
theorem State.Inv.seenBy {s : State} (h : s.Inv) (ov : Bool) (rd : Word) (mw : List (List WinAccess)) :
    (s.seenBy ov rd mw).Inv := h

theorem State.Inv.busyPoint {s : State} (h : s.Inv) : (busyPoint s).Inv := by
  obtain ⟨ov, rd, mw, he, -⟩ := busyPoint_eq s
  rw [he]
  exact h.seenBy ov rd mw

theorem State.Inv.busyAccess {s : State} (h : s.Inv) (a : WinAccess) : (busyAccess a s).Inv := by
  obtain ⟨ov, rd, he, -⟩ := busyAccess_eq a s
  rw [he]
  exact h.seenBy ov rd _

theorem State.Inv.accept {s : State} (h : s.Inv) (w : Word) : (accept w s).Inv := by
  obtain ⟨⟨hp, hc, hd, hr, hk⟩, -, -⟩ := s.inv_iff.1 h
  exact State.inv_of_busy rfl ⟨hp, hc, hd, hr, hk⟩ (State.statusCoherent_of_clear rfl rfl rfl rfl rfl)

/-- `DEVSTATE` after attach is the image of DeviceState after attach (R26, R40). -/
theorem DeviceState.image_atAttach : DeviceState.atAttach.image = 0x0000000E#32 := by decide

/-- Attach, and with it detach, leaves the invariant in place: the peripheral and the log stay, all else is as R40
says. -/
theorem State.Inv.attachBlock {s : State} (h : s.Inv) {c : Cfg} (hc : c.wellFormed = true) :
    (attachBlock c s).Inv := by
  obtain ⟨⟨hp, -, -, -, hk⟩, -, -⟩ := s.inv_iff.1 h
  exact (State.inv_iff _).2 ⟨⟨hp, hc, (State.classCoherent_iff _).2 nofun, by simp, hk⟩,
    State.statusCoherent_of_clear rfl rfl rfl rfl rfl, fun _ => DeviceState.image_atAttach.symm⟩

theorem WriteRun.keepsInv {s t : State} {r : WinReg} {w : Word} (h : WriteRun s r w t) (hi : s.Inv) : t.Inv := by
  have hstart (w : Word) : (Machine.busyPoint (Machine.accept w s)).Inv := (hi.accept w).busyPoint
  cases h with
  | busy => exact hi.busyAccess _
  | illegal _ e =>
    exact endCommand_inv ((State.inv_iff _).1 (hstart w)).1 (by simp) (by simp) (by cases e <;> simp [decodeReport])
  | command _ i _ _ _ hrun => exact hrun.keepsInv (by simp) (hstart w)
  | arg0 => exact hi
  | arg1 => exact hi
  | ignored => exact hi

theorem State.Inv.pollStatus {s : State} (h : s.Inv) : (pollStatus s).Inv := by
  cases hd : s.status.done with
  | true => rw [pollStatus_done hd]; exact h
  | false => rw [pollStatus_waits hd]; exact h

theorem MoveRun.keepsInv {s t : State} {m : HostMove} (h : MoveRun s m t) (hi : s.Inv) : t.Inv := by
  cases h with
  | attach c hc => exact hi.attachBlock hc
  | detach => exact hi.attachBlock (s.inv_iff.1 hi).1.cfg
  | read offset size r hr => exact hi
  | poll => exact hi.pollStatus
  | write offset size w r _ hr hw => exact hw.keepsInv hi

/-- Settles O59: the host's next move keeps each part of the invariant, and a command does so from its acceptance to its
end. -/
theorem everyStepKeepsTheInvariant : Obligations.EveryStepKeepsTheInvariant := by
  intro s t hi h
  rcases step_run h with ⟨-, rfl⟩ | ⟨m, rest, -, hm⟩
  · exact hi
  · exact hm.keepsInv hi

/-- Settles O58: the peripheral lists nothing, the log is empty, and every other part is a value of R40. -/
theorem resetMeetsTheInvariant : Obligations.ResetMeetsTheInvariant := by
  refine (State.inv_iff _).2 ⟨⟨State.reset_periph_wf, by decide, (State.classCoherent_iff _).2 nofun, by decide, ?_⟩,
    State.statusCoherent_of_clear rfl rfl rfl rfl rfl, fun _ => by decide⟩
  intro a v h
  cases h

end Sys2Proof.Machine
end

section
/-! Proofs on the family 10_state: what every command leaves of its inputs and of DeviceState (spec 10_state.md rules
R24, R27 to R30, R34, 70_reset_and_hazards.md rule R272). -/

namespace Sys2Proof.Machine

/-! The inputs of a command. -/

theorem SameInputs.trans {s t u : State} (h : SameInputs s t) (g : SameInputs t u) : SameInputs s u := by
  obtain ⟨h1, h2, h3, h4, h5, h6, h7, h8, h9⟩ := h
  obtain ⟨g1, g2, g3, g4, g5, g6, g7, g8, g9⟩ := g
  exact ⟨g1.trans h1, g2.trans h2, g3.trans h3, g4.trans h4, g5.trans h5, g6.trans h6, g7.trans h7, g8.trans h8,
    g9.trans h9⟩

theorem Effect.sameInputs {regs : List Byte} {n : Nat} {new : List PortEvent} {s t : State}
    (h : Effect regs n new s t) : SameInputs s t :=
  ⟨h.attached, h.cmdWord, h.opArg0, h.opArg1, h.arg0, h.arg1, h.cfg, h.status_lastOp, h.host_moves⟩

theorem ResultStep.sameInputs {i : Instr} {e : Report} {addr : Byte} {u v : State} (h : ResultStep i e addr u v) :
    SameInputs u v := by
  rcases h.writes with rfl | ⟨x, rfl⟩ | ⟨-, rfl⟩ | ⟨-, p, relock, d, -, rfl, -⟩ <;>
    exact ⟨rfl, rfl, rfl, rfl, rfl, rfl, rfl, rfl, rfl⟩

theorem endCommand_sameInputs (e : Report) (addr : Byte) (s : State) : SameInputs s (endCommand e addr s) :=
  ⟨rfl, rfl, rfl, rfl, rfl, rfl, rfl, rfl, rfl⟩

/-- A run of a command leaves its inputs alone, but that a detach while it is in progress becomes the host's next move
(R272). -/
theorem CommandRun.inputs {i : Instr} {s t : State} (h : CommandRun i s t) :
    SameInputs s t ∨ (t.fsm = s.fsm ∧ ∃ u, SameInputs s u ∧ t = u.leave) := by
  cases h with
  | hung d pre e u _ g => exact .inl g.sameInputs
  | left d new u _ g => exact .inr ⟨g.fsm, u, g.sameInputs, rfl⟩
  | ended d new u v e addr _ g hr =>
    exact .inl (SameInputs.trans g.sameInputs (hr.sameInputs.trans (endCommand_sameInputs e addr v)))

/-- No run of a command changes an operand register (R24). -/
theorem CommandRun.args {i : Instr} {s t : State} (h : CommandRun i s t) : t.arg0 = s.arg0 ∧ t.arg1 = s.arg1 := by
  rcases h.inputs with ⟨-, -, -, -, h0, h1, -⟩ | ⟨-, u, ⟨-, -, -, -, h0, h1, -⟩, rfl⟩ <;> exact ⟨h0, h1⟩

/-- Settles O47: neither the transactions of a command, nor its results, nor its end touch its inputs. -/
theorem noCommandChangesItsInputs : Obligations.NoCommandChangesItsInputs :=
  fun _ _ _ h => (run_of_exec h).inputs

/-! DeviceState after a command. -/

/-- The results of a command leave DeviceState alone, but for the family NEG records (R188). -/
theorem ResultStep.ds {i : Instr} {e : Report} {addr : Byte} {u v : State} (h : ResultStep i e addr u v) :
    v.ds = u.ds ∨ (i = .neg ∧ ∃ f, v.ds = { u.ds with lastClass := some f }) := by
  rcases h.writes with rfl | ⟨x, rfl⟩ | ⟨-, rfl⟩ | ⟨hi, p, relock, d, -, rfl, hd⟩
  · exact .inl rfl
  · exact .inl rfl
  · exact .inl rfl
  · rcases hd with rfl | ⟨f, -, rfl⟩
    · exact .inl rfl
    · exact .inr ⟨hi, f, rfl⟩

/-- DeviceState after a run of a command: its rule's update, and the family NEG recorded, if any. -/
theorem CommandRun.ds {i : Instr} {s t : State} (h : CommandRun i s t) :
    ∃ d, DsStep i s d ∧ (t.ds = d ∨ (i = .neg ∧ ∃ f, t.ds = { d with lastClass := some f })) := by
  cases h with
  | hung d pre e u hd g => exact ⟨d, hd, .inl g.ds⟩
  | left d new u hd g => exact ⟨d, hd, .inl g.ds⟩
  | ended d new u v e addr hd g hr =>
    have hu : u.ds = d := g.ds
    have hv := hr.ds
    rw [hu] at hv
    exact ⟨d, hd, hv⟩

/-- Settles O49: a command's rule updates at most the one field of DeviceState that is its own, and only NEG records a
family. -/
theorem deviceStateFieldsHaveTheirWriters : Obligations.DeviceStateFieldsHaveTheirWriters := by
  intro i s t h
  obtain ⟨d, hd, ht⟩ := (run_of_exec h).ds
  have hclass : i ≠ .neg → t.ds.lastClass = s.ds.lastClass := fun hi => by
    rcases ht with ht | ⟨hneg, -⟩
    · rw [ht, hd.lastClass]
    · exact absurd hneg hi
  have hfields : t.ds.forceMute = d.forceMute ∧ t.ds.streamMuted = d.streamMuted ∧ t.ds.muteMode = d.muteMode := by
    rcases ht with ht | ⟨-, f, ht⟩ <;> simp [ht]
  obtain ⟨hforce, hstream, hmode⟩ := hfields
  rw [hforce, hstream, hmode]
  rcases hd.writes with rfl | ⟨hi, b, rfl⟩ | ⟨hi, b, rfl⟩ | ⟨hi, m, rfl⟩
  · exact ⟨fun _ => rfl, fun _ => rfl, fun _ => rfl, hclass⟩
  · exact ⟨fun hn => absurd hi hn, fun _ => rfl, fun _ => rfl, hclass⟩
  · exact ⟨fun _ => rfl, fun hn => absurd hi hn, fun _ => rfl, hclass⟩
  · exact ⟨fun _ => rfl, fun _ => rfl, fun hn => absurd hi hn, hclass⟩

end Sys2Proof.Machine
end

section
/-! Proofs on the family 10_state: the register window, the operand registers and the BUSY points (spec 20_memory.md
rules R60 to R62, 10_state.md rules R23, R24). -/

namespace Sys2Proof.Machine

/-! Which register an access reaches. -/

/-- The offset of a register in the window (R23). -/
def WinReg.offset : WinReg → Nat
  | .cmd => 0x00
  | .arg0 => 0x04
  | .arg1 => 0x08
  | .status => 0x0C
  | .res0 => 0x10
  | .res1 => 0x14
  | .res2 => 0x18
  | .res3 => 0x1C
  | .res4 => 0x20
  | .devstate => 0x24
  | .cfgRef44 => 0x28
  | .cfgRef48 => 0x2C
  | .cfgBclkRatio => 0x30
  | .cfgMode => 0x34
  | .reserved38 => 0x38
  | .reserved3C => 0x3C

/-- The registers of the window, offsets rising. -/
def windowRegs : List WinReg :=
  [.cmd, .arg0, .arg1, .status, .res0, .res1, .res2, .res3, .res4, .devstate, .cfgRef44, .cfgRef48, .cfgBclkRatio,
   .cfgMode, .reserved38, .reserved3C]

/-- An access reaches a register exactly when it is a whole word at the register's offset (R60, R61). -/
theorem windowRegister_eq_some {offset size : Nat} {r : WinReg} :
    windowRegister offset size = some r ↔ size = 4 ∧ offset = r.offset := by
  constructor
  · intro h
    unfold windowRegister at h
    split at h
    · cases h
    · next hs => split at h <;> cases h <;> exact ⟨not_not.1 hs, rfl⟩
  · rintro ⟨rfl, rfl⟩
    cases r <;> rfl

/-- The offsets of the registers are the aligned ones below 0x40 (R23). -/
theorem WinReg.exists_offset {offset : Nat} (ha : offset % 4 = 0) (hl : offset < 0x40) :
    ∃ r : WinReg, offset = r.offset := by
  have all : ∀ o < 0x40, o % 4 = 0 → ∃ r ∈ windowRegs, o = r.offset := by decide
  obtain ⟨r, -, hr⟩ := all offset hl ha
  exact ⟨r, hr⟩

theorem WinReg.offset_whole (r : WinReg) : r.offset % 4 = 0 ∧ r.offset < 0x40 := by cases r <;> decide

/-- An access that is not a whole aligned word of the window reaches no register (R61). -/
theorem windowRegister_eq_none {offset size : Nat} (h : ¬ (size = 4 ∧ offset % 4 = 0 ∧ offset < 0x40)) :
    windowRegister offset size = none := by
  refine Option.eq_none_iff_forall_ne_some.2 fun r hr => h ?_
  obtain ⟨hs, rfl⟩ := windowRegister_eq_some.1 hr
  exact ⟨hs, r.offset_whole⟩

/-! The step of each access of an attached block. -/

section Access
variable {s : State} {offset size : Nat} {v : Word} {rest : List HostMove}

/-- The host's list of moves shows in no register. -/
theorem windowRead_setMoves (r : WinReg) (ms : List HostMove) (s : State) :
    windowRead r (s.setMoves ms) = windowRead r s := by cases r <;> rfl

theorem step_read (ha : s.attached = true) (hm : s.host.moves = .read offset size :: rest) {r : WinReg}
    (hr : windowRegister offset size = some r) :
    step s = .next ((s.setMoves rest).setRdata (windowRead r s)) := by
  simp [step, engineStep, hm, hostMove, ha, hr, windowRead_setMoves]

theorem step_write (ha : s.attached = true) (hm : s.host.moves = .write offset size v :: rest) {r : WinReg}
    (hr : windowRegister offset size = some r) : step s = windowWrite r v (s.setMoves rest) := by
  simp [step, engineStep, hm, hostMove, ha, hr]

theorem step_read_refused (ha : s.attached = true) (hm : s.host.moves = .read offset size :: rest)
    (hr : windowRegister offset size = none) : step s = .refused .noWindowRegister := by
  simp [step, engineStep, hm, hostMove, ha, hr]

theorem step_write_refused (ha : s.attached = true) (hm : s.host.moves = .write offset size v :: rest)
    (hr : windowRegister offset size = none) : step s = .refused .noWindowRegister := by
  simp [step, engineStep, hm, hostMove, ha, hr]

/-- A host that waits for DONE reads `STATUS` once a step, and goes on when it has read DONE (R100). -/
theorem step_readUntilDone (ha : s.attached = true) (hm : s.host.moves = .readUntilDone :: rest) :
    step s = .next ((if s.status.done then s.setMoves rest else s).setRdata (windowRead .status s)) := by
  cases hd : s.status.done with
  | false => exact step_waits ha hd hm
  | true =>
    have hd' : (s.setMoves rest).status.done = true := hd
    simp [step, engineStep, hm, hostMove, ha, pollStatus_done hd', windowRead_setMoves]

end Access

/-! What a write of each register does. -/

/-- A dropped write sets OVERRUN and does nothing else (R24). -/
theorem windowWrite_busy {r : WinReg} (v : Word) {s : State} (hb : s.fsm = .busy) (hr : r.droppedWhileBusy = true) :
    windowWrite r v s = .next s.setOverrun := by
  simp [windowWrite, hb, busyAccess, hr]

theorem windowWrite_arg0 (v : Word) {s : State} (hi : s.fsm = .idle) :
    windowWrite .arg0 v s = .next { s with arg0 := v } := by simp [windowWrite, hi]

theorem windowWrite_arg1 (v : Word) {s : State} (hi : s.fsm = .idle) :
    windowWrite .arg1 v s = .next { s with arg1 := v } := by simp [windowWrite, hi]

/-- A write of a read-only or reserved register does nothing, IDLE or BUSY (R23). -/
theorem windowWrite_ignored {r : WinReg} (v : Word) (s : State) (hr : r.droppedWhileBusy = false) :
    windowWrite r v s = .next s := by
  unfold windowWrite
  split
  · simp [busyAccess, hr]
  · cases r with
    | cmd | arg0 | arg1 => cases hr
    | _ => rfl

/-- The registers a host can write are the first three of the window (R23). -/
theorem WinReg.droppedWhileBusy_eq (r : WinReg) : r.droppedWhileBusy = decide (r.offset < 0x0C) := by cases r <;> rfl

/-- Settles O11: the registers from 0x0C on are those a write leaves alone. -/
theorem readOnlyRegistersIgnoreWrites : Obligations.ReadOnlyRegistersIgnoreWrites := by
  intro s offset v rest ha h4 hlo hhi hm
  obtain ⟨r, rfl⟩ := WinReg.exists_offset h4 hhi
  rw [step_write ha hm (windowRegister_eq_some.2 ⟨rfl, rfl⟩)]
  exact windowWrite_ignored v _ (by simpa [WinReg.droppedWhileBusy_eq] using hlo)

/-! The words of the window. -/

theorem modeWord_eq (m : OperatingMode) : modeWord m = if m = .slave then 1#32 else 0#32 := by cases m <;> rfl

/-- The table of offsets and words, from the registers themselves. -/
def windowWords (s : State) : List (Nat × Word) := windowRegs.map fun r => (r.offset, windowRead r s)

/-- The table of R23, written out. -/
theorem windowWords_eq (s : State) : windowWords s =
    [(0x00, 0#32), (0x04, s.arg0), (0x08, s.arg1), (0x0C, windowRead .status s), (0x10, s.res0), (0x14, s.res1),
      (0x18, s.res2), (0x1C, s.res3), (0x20, s.res4), (0x24, windowRead .devstate s), (0x28, s.cfg.ref44),
      (0x2C, s.cfg.ref48), (0x30, s.cfg.bclkRatio), (0x34, if s.cfg.mode = .slave then 1#32 else 0#32), (0x38, 0#32),
      (0x3C, 0#32)] := by
  rw [← modeWord_eq]
  rfl

theorem mem_windowWords {s : State} {p : Nat × Word} :
    p ∈ windowWords s ↔ ∃ r : WinReg, p = (r.offset, windowRead r s) := by
  have all (r : WinReg) : r ∈ windowRegs := by cases r <;> decide
  simp [windowWords, all, eq_comm]

/-- Settles O9: an access reaches the register at its offset if it is whole, and none otherwise, and no write of a
register is refused. -/
theorem onlyAlignedWordsReachTheWindow : Obligations.OnlyAlignedWordsReachTheWindow := by
  intro s offset size v rest ha
  dsimp only
  rw [← windowWords_eq]
  refine ⟨fun hm => ⟨fun hn => ?_, fun hw => ?_, fun p hp ho hs => ?_⟩, step_readUntilDone ha,
    fun hm => ⟨fun hn => ?_, fun hw => ?_⟩⟩
  · exact step_read_refused ha hm (windowRegister_eq_none hn)
  · obtain ⟨-, h4, hl⟩ := hw
    obtain ⟨r, rfl⟩ := WinReg.exists_offset h4 hl
    exact ⟨_, mem_windowWords.2 ⟨r, rfl⟩, rfl⟩
  · obtain ⟨r, rfl⟩ := mem_windowWords.1 hp
    exact step_read ha hm (windowRegister_eq_some.2 ⟨hs, ho.symm⟩)
  · exact step_write_refused ha hm (windowRegister_eq_none hn)
  · obtain ⟨hs, h4, hl⟩ := hw
    obtain ⟨r, hr⟩ := WinReg.exists_offset h4 hl
    obtain ⟨t, ht, -⟩ := windowWrite_run r v (s.setMoves rest)
    rw [step_write ha hm (windowRegister_eq_some.2 ⟨hs, hr⟩), ht]
    nofun

/-! The operand registers. -/

/-- A write changes an operand register only if it is a write of that register (R23, R24). -/
theorem WriteRun.args {s t : State} {r : WinReg} {w : Word} (h : WriteRun s r w t) :
    (r ≠ .arg0 → t.arg0 = s.arg0) ∧ (r ≠ .arg1 → t.arg1 = s.arg1) := by
  cases h with
  | busy =>
    obtain ⟨ov, rd, he, -⟩ := busyAccess_eq (.write r w) s
    rw [he]
    exact ⟨fun _ => rfl, fun _ => rfl⟩
  | illegal => simp
  | command _ i _ _ _ hrun =>
    obtain ⟨h0, h1⟩ := hrun.args
    exact ⟨fun _ => by simpa using h0, fun _ => by simpa using h1⟩
  | arg0 => exact ⟨fun h => absurd rfl h, fun _ => rfl⟩
  | arg1 => exact ⟨fun _ => rfl, fun h => absurd rfl h⟩
  | ignored => exact ⟨fun _ => rfl, fun _ => rfl⟩

theorem pollStatus_args (s : State) : (pollStatus s).arg0 = s.arg0 ∧ (pollStatus s).arg1 = s.arg1 := by
  cases hd : s.status.done with
  | true => rw [pollStatus_done hd]; exact ⟨rfl, rfl⟩
  | false => rw [pollStatus_waits hd]; exact ⟨rfl, rfl⟩

/-- Besides attach and detach, only a word write at its offset changes an operand register. -/
theorem MoveRun.args {s t : State} {m : HostMove} (h : MoveRun s m t) (ha : ∀ c, m ≠ .attach c)
    (hd : m ≠ .detach) : ((∀ v, m ≠ .write 0x04 4 v) → t.arg0 = s.arg0) ∧
      ((∀ v, m ≠ .write 0x08 4 v) → t.arg1 = s.arg1) := by
  cases h with
  | attach c => exact absurd rfl (ha c)
  | detach => exact absurd rfl hd
  | read => exact ⟨fun _ => rfl, fun _ => rfl⟩
  | poll =>
    obtain ⟨h0, h1⟩ := pollStatus_args s
    exact ⟨fun _ => h0, fun _ => h1⟩
  | write offset size w r _ hr hw =>
    obtain ⟨rfl, rfl⟩ := windowRegister_eq_some.1 hr
    obtain ⟨h0, h1⟩ := hw.args
    exact ⟨fun hn => h0 fun he => hn w (by rw [he]; rfl), fun hn => h1 fun he => hn w (by rw [he]; rfl)⟩

/-! A BUSY point, access by access. -/

/-- Whether an access while BUSY is a dropped write (R24). -/
def WinAccess.isDropped : WinAccess → Bool
  | .read _ => false
  | .write r _ => r.droppedWhileBusy

/-- The host's side of the state shows in no register. -/
theorem windowRead_seenBy (r : WinReg) (ov : Bool) (rd : Word) (mw : List (List WinAccess)) (s : State) :
    windowRead r (s.seenBy ov rd mw) = windowRead r { s with status := { s.status with overrun := ov } } := by
  cases r <;> rfl

theorem busyAccesses_cons (a : WinAccess) (as : List WinAccess) (s : State) :
    busyAccesses (a :: as) s = busyAccesses as (busyAccess a s) := rfl

theorem busyAccesses_append (as bs : List WinAccess) (s : State) :
    busyAccesses (as ++ bs) s = busyAccesses bs (busyAccesses as s) := List.foldl_append

/-- An access sets OVERRUN exactly if it is a dropped write, and otherwise changes at most the read data. -/
theorem busyAccess_seenBy (a : WinAccess) (s : State) : busyAccess a s =
    s.seenBy (s.status.overrun || a.isDropped) (busyAccess a s).host.rdata s.host.meanwhile := by
  cases a with
  | read r => simp only [WinAccess.isDropped, Bool.or_false]; rfl
  | write r v => cases hr : r.droppedWhileBusy <;> simp [busyAccess, WinAccess.isDropped, hr] <;> rfl

/-- A list of accesses sets OVERRUN exactly if one of them is a dropped write, and otherwise changes at most the read
data (R24). -/
theorem busyAccesses_seenBy (as : List WinAccess) (s : State) : busyAccesses as s =
    s.seenBy (s.status.overrun || as.any WinAccess.isDropped) (busyAccesses as s).host.rdata s.host.meanwhile := by
  induction as generalizing s with
  | nil => simp only [List.any_nil, Bool.or_false]; rfl
  | cons a as ih =>
    rw [busyAccesses_cons, ih (busyAccess a s), busyAccess_seenBy a s, List.any_cons, ← Bool.or_assoc]
    rfl

/-- Without a read the host's read data stays. -/
theorem busyAccesses_rdata_of_no_read {as : List WinAccess} (h : ∀ r, WinAccess.read r ∉ as) (s : State) :
    (busyAccesses as s).host.rdata = s.host.rdata := by
  induction as generalizing s with
  | nil => rfl
  | cons a as ih =>
    rw [busyAccesses_cons, ih fun r hr => h r (List.mem_cons_of_mem _ hr)]
    cases a with
    | read r => exact absurd List.mem_cons_self (h r)
    | write r v => cases hr : r.droppedWhileBusy <;> simp [busyAccess, hr]

/-- The read data after accesses is what the last read among them returned, OVERRUN as those before it left it (R62). -/
theorem busyAccesses_rdata_of_last_read (pre : List WinAccess) (r : WinReg) {post : List WinAccess}
    (h : ∀ q, WinAccess.read q ∉ post) (s : State) :
    (busyAccesses (pre ++ .read r :: post) s).host.rdata =
      windowRead r { s with status :=
        { s.status with overrun := s.status.overrun || pre.any WinAccess.isDropped } } := by
  rw [busyAccesses_append, busyAccesses_cons, busyAccesses_rdata_of_no_read h, ← windowRead_seenBy,
    ← busyAccesses_seenBy]
  rfl

/-- What a BUSY point does, access by access (R24, R62). -/
theorem busyPoint_cons {s : State} {as : List WinAccess} {rest : List (List WinAccess)}
    (h : s.host.meanwhile = as :: rest) : busyPoint s = busyAccesses as (s.setMeanwhile rest) := by
  simp [busyPoint, h]

/-- A predicate that picks the writes of `CMD`, `ARG0` and `ARG1` picks the dropped writes. -/
theorem WinAccess.eq_isDropped {f : WinAccess → Bool}
    (hw : ∀ r v, f (.write r v) = decide (r ∈ [WinReg.cmd, WinReg.arg0, WinReg.arg1]))
    (hr : ∀ r, f (.read r) = false) : f = WinAccess.isDropped := by
  funext a
  cases a with
  | read r => exact hr r
  | write r v => rw [hw]; cases r <;> rfl

/-- Settles O10: an operand register changes only where the host writes it while IDLE, and a BUSY point is its list of
accesses, each of which sets OVERRUN or receives a word. -/
theorem operandRegistersAndBusyWrites : Obligations.OperandRegistersAndBusyWrites := by
  refine ⟨fun s v rest ha hi => ⟨fun hm => ?_, fun hm => ?_⟩, fun s t hs hna hnd => ?_,
    fun s offset v rest ha hb ho hm => ?_, fun s as rest hm => ?_, fun s hm => by simp [busyPoint, hm]⟩
  · rw [step_write (r := .arg0) ha hm rfl, windowWrite_arg0 v (s := s.setMoves rest) hi]
  · rw [step_write (r := .arg1) ha hm rfl, windowWrite_arg1 v (s := s.setMoves rest) hi]
  · rcases step_run hs with ⟨-, rfl⟩ | ⟨m, rest, hm, hrun⟩
    · exact ⟨fun _ => rfl, fun _ => rfl⟩
    · rw [hm] at hna hnd ⊢
      obtain ⟨h0, h1⟩ := hrun.args (fun c hc => hna c rest (by rw [hc])) (fun hd => hnd rest (by rw [hd]))
      exact ⟨fun hn => h0 fun v hv => hn v rest (by rw [hv]), fun hn => h1 fun v hv => hn v rest (by rw [hv])⟩
  · have hfirst : ∀ o ∈ [0x00, 0x04, 0x08], o % 4 = 0 ∧ o < 0x0C := by decide
    obtain ⟨h4, hlt⟩ := hfirst offset ho
    obtain ⟨r, rfl⟩ := WinReg.exists_offset h4 (by omega)
    have hr : r.droppedWhileBusy = true := r.droppedWhileBusy_eq.trans (decide_eq_true hlt)
    rw [step_write ha hm (windowRegister_eq_some.2 ⟨rfl, rfl⟩), windowWrite_busy v (s := s.setMoves rest) hb hr]
  · intro after
    have hafter (l : List WinAccess) :
        after l = { s.status with overrun := s.status.overrun || l.any WinAccess.isDropped } :=
      congrArg (fun f => { s.status with overrun := s.status.overrun || l.any f })
        (WinAccess.eq_isDropped (fun _ _ => rfl) fun _ => rfl)
    refine ⟨(busyAccesses as (s.setMeanwhile rest)).host.rdata, ?_, fun h => busyAccesses_rdata_of_no_read h _, ?_⟩
    · rw [hafter]
      exact (busyPoint_cons hm).trans (busyAccesses_seenBy as _)
    · rintro pre r post rfl hpost
      rw [hafter]
      exact (busyAccesses_rdata_of_last_read pre r hpost _).trans (windowRead_seenBy r _ s.host.rdata rest s)

end Sys2Proof.Machine
end

section
/-! Proofs on the family 10_state: the bits of `STATUS` and `DEVSTATE`, and the state at attach (spec 10_state.md rules
R25, R26, R31, R40). -/

namespace Sys2Proof.Machine

/-- The one-bit fields of `STATUS` (R25). -/
theorem statusWord_flags (f : Fsm) (t : Status) :
    (statusWord f t).getLsbD 0 = decide (f = .busy) ∧ (statusWord f t).getLsbD 1 = t.done ∧
    (statusWord f t).getLsbD 2 = t.isPartial ∧ (statusWord f t).getLsbD 3 = t.degraded ∧
    (statusWord f t).getLsbD 4 = t.overrun := by
  simp only [statusWord, BitVec.getLsbD_append, BitVec.getLsbD_ofBool]
  simp

/-- The wider fields of `STATUS` (R25). -/
theorem statusWord_fields (f : Fsm) (t : Status) :
    (statusWord f t).extractLsb' 5 3 = 0#3 ∧ (statusWord f t).extractLsb' 8 4 = t.report.err ∧
    (statusWord f t).extractLsb' 12 4 = t.report.sub ∧ (statusWord f t).extractLsb' 16 8 = t.lastOp ∧
    (statusWord f t).extractLsb' 24 8 = t.failAddr := by
  simp (disch := decide) only [statusWord, BitVec.extractLsb'_append_eq_of_le, BitVec.extractLsb'_append_eq_of_add_le]
  simp

/-- The fields of `DEVSTATE` (R26). -/
theorem DeviceState.image_fields (d : DeviceState) :
    d.image.getLsbD 0 = d.forceMute ∧ d.image.getLsbD 1 = d.streamMuted ∧
    d.image.getLsbD 2 = decide (d.muteMode = .onIdle) ∧ d.image.getLsbD 3 = d.eff ∧
    d.image.extractLsb' 4 2 = lastClassCode d.lastClass ∧ d.image.extractLsb' 6 26 = 0#26 := by
  simp (disch := decide) only [DeviceState.image, BitVec.getLsbD_append, BitVec.getLsbD_ofBool,
    BitVec.extractLsb'_append_eq_of_le, BitVec.extractLsb'_append_eq_of_add_le]
  simp

/-- Effective mute (R31). -/
theorem DeviceState.eff_iff (d : DeviceState) :
    d.eff = true ↔ d.forceMute = true ∨ (d.muteMode = .onIdle ∧ d.streamMuted = true) := by
  simp [DeviceState.eff]

/-- Settles O8: the words are put together from their fields, and under the invariant the word at `DEVSTATE` is
DeviceState's image while IDLE. -/
theorem statusAndDevstateBits : Obligations.StatusAndDevstateBits := by
  intro s
  obtain ⟨hbusy, hdone, hpartial, hdegraded, hoverrun⟩ := statusWord_flags s.fsm s.status
  obtain ⟨hreserved, herr, hsub, hlast, haddr⟩ := statusWord_fields s.fsm s.status
  refine ⟨⟨hbusy, hdone, hpartial, hdegraded, hoverrun, hreserved, herr, hsub, hlast, haddr⟩, fun hinv hidle => ?_,
    s.ds.eff_iff, fun e => by cases e <;> decide, fun c hc hr => ?_⟩
  · obtain ⟨-, -, hcurrent⟩ := s.inv_iff.1 hinv
    rw [show windowRead .devstate s = s.ds.image from hcurrent hidle]
    obtain ⟨hforce, hstream, hmode, heff, hclass, hzero⟩ := s.ds.image_fields
    exact ⟨hforce, hstream, hmode, heff, hclass.trans (by rcases s.ds.lastClass with _ | _ | _ <;> rfl), hzero⟩
  · have hcodes : ∀ c ∈ ([(.ok, 0, 0), (.outOfRange, 1, 1), (.unsupportedRate, 1, 2), (.divideByZero, 1, 3),
        (.divisorZero, 1, 4), (.badFormat, 1, 5), (.transportRead, 2, 1), (.transportWrite, 2, 2),
        (.unsupportedOp, 3, 0), (.badOpcode, 4, 1), (.badCtlId, 4, 2), (.reservedBits, 4, 3)] :
          List (Report × Nat × Nat)), c.1.err.toNat = c.2.1 ∧ c.1.sub.toNat = c.2.2 := by decide
    rw [show windowRead .status s = statusWord s.fsm s.status from rfl, herr, hsub, hr]
    exact hcodes c hc

/-- Settles O56: the values of R40 are those `State.atAttach` is made of, and a register that is not listed reads as its
entry of `PERIPH_INIT`. -/
theorem attachLeavesTheStatedValues : Obligations.AttachLeavesTheStatedValues :=
  ⟨fun _ => ⟨rfl, rfl, rfl, rfl, rfl, rfl, rfl, rfl, rfl, rfl, rfl, rfl, rfl,
    show statusWord .idle Status.atAttach = 0#32 by decide, rfl, DeviceState.image_atAttach.symm, rfl, rfl,
    fun _ => rfl⟩, Config.nominal, rfl⟩

end Sys2Proof.Machine
end

section
/-! Proofs on the family 20_memory: which registers a command names, and how many transactions it issues (spec
20_memory.md rules R63, R67, R71, 41_control_registry.md rules R152, R160, 42_clock_negotiator.md rule R193,
70_reset_and_hazards.md rule R289). -/

namespace Sys2Proof.Machine

/-! The transactions of a run. -/

theorem ResultStep.noTransaction {i : Instr} {e : Report} {addr : Byte} {u v : State} (h : ResultStep i e addr u v) :
    NoTransaction u v := by
  rcases h.writes with rfl | ⟨x, rfl⟩ | ⟨-, rfl⟩ | ⟨-, p, relock, d, -, rfl, -⟩ <;> exact ⟨rfl, rfl, rfl, rfl⟩

/-- However a run goes, its transactions are those of one `Effect` within the command's bounds; what it writes after them,
its results and its end, issues none. -/
theorem CommandRun.effect {i : Instr} {s t : State} (h : CommandRun i s t) :
    ∃ d new u, Effect (commandRegisters i) (commandTransactions i) new (s.setDs d) u ∧ NoTransaction u t := by
  cases h with
  | hung d pre e u _ g => exact ⟨d, _, t, g, rfl, rfl, rfl, rfl⟩
  | left d new u _ g => exact ⟨d, new, u, g, rfl, rfl, rfl, rfl⟩
  | ended d new u v e addr _ g hr => exact ⟨d, new, u, g, hr.noTransaction⟩

/-! The registers a command names. -/

/-- Every transaction issued between `s` and `t` names a register of `regs`. -/
def LogNames (regs : List Byte) (s t : State) : Prop := ∃ new, t.log = s.log ++ new ∧ ∀ e ∈ new, e.reg ∈ regs

theorem LogNames.of_log_eq {regs : List Byte} {s t : State} (h : t.log = s.log) : LogNames regs s t :=
  ⟨[], by simpa using h, by simp⟩

theorem LogNames.reg_mem {regs : List Byte} {s t : State} {new : List PortEvent} (h : LogNames regs s t)
    (hl : t.log = s.log ++ new) : ∀ e ∈ new, e.reg ∈ regs := by
  obtain ⟨new', hl', hn⟩ := h
  obtain rfl := List.append_cancel_left (hl.symm.trans hl')
  exact hn

theorem PlanNames.finish {α : Type} {regs : List Byte} {s : State} {put : α → State → State} {r : PlanResult α}
    (h : PlanNames regs s r) (hput : ∀ a u, (put a u).log = u.log) : LogNames regs s (finish put r) := by
  obtain ⟨new, hl, hn⟩ := h
  refine ⟨new, Eq.trans ?_ hl, hn⟩
  cases r with
  | done a u => exact hput a u
  | raised e addr u => rfl
  | stopped u => rfl

theorem PlanNames.finishPlain {regs : List Byte} {s : State} {r : PlanResult Unit} (h : PlanNames regs s r) :
    LogNames regs s (finishPlain r) :=
  h.finish fun _ _ => rfl

theorem PlanNames.finishRead {regs : List Byte} {s : State} {r : PlanResult Word} (h : PlanNames regs s r) :
    LogNames regs s (finishRead r) := by
  obtain ⟨new, hl, hn⟩ := h
  refine ⟨new, Eq.trans ?_ hl, hn⟩
  cases r <;> rfl

theorem streamStopPlan_names (s : State) : PlanNames [10#8] s (streamStopPlan s) := by
  simp only [streamStopPlan]
  split
  · exact writeMute_names true (s.setDs _)
  · exact .pure _ (s.setDs _) ()

theorem relockPulse_names (f : Family) (s : State) : PlanNames [17#8] s (relockPulse f s) :=
  .bind (fieldWrite_names (by simp) _ _ _ s) fun _ t =>
  .bind (fieldWrite_names (by simp) _ _ _ t) fun _ t => .pure _ (t.setDs _) ()

theorem relockIfChanged_names (family : Option Family) (s : State) : PlanNames [17#8] s (relockIfChanged family s) := by
  cases family with
  | none => exact .pure _ s false
  | some f =>
    simp only [relockIfChanged]
    split
    · exact .pure _ s false
    · exact .bind (relockPulse_names f s) fun _ t => .pure _ t true

theorem commandReaches_ctlRd {ctl : BitVec 8} {c : Control} (h : controlOfId ctl = some c) :
    commandReaches (.ctlRd ctl) = if c = .mute then [] else controlRegisters c := by
  obtain rfl := controlOfId_eq_some h
  cases c <;> rfl

theorem commandReaches_ctlWr {ctl : BitVec 8} {c : Control} (h : controlOfId ctl = some c) :
    commandReaches (.ctlWr ctl) = controlRegisters c := by
  simp [commandReaches, h]

theorem execCtlRd_names {ctl : BitVec 8} {s t : State} (h : execCtlRd ctl s = .next t) :
    LogNames (commandReaches (.ctlRd ctl)) s t := by
  cases h
  cases hc : controlOfId ctl with
  | none => exact .of_log_eq rfl
  | some c =>
    rw [commandReaches_ctlRd hc]
    exact (readControl_names c s).finishRead

theorem execCtlWr_names {ctl : BitVec 8} {s t : State} (h : execCtlWr ctl s = .next t) :
    LogNames (commandReaches (.ctlWr ctl)) s t := by
  cases h
  cases hc : controlOfId ctl with
  | none => exact .of_log_eq rfl
  | some c =>
    rw [commandReaches_ctlWr hc]
    dsimp only
    split
    · exact (writeControl_names c _ s).finishPlain
    · exact .of_log_eq rfl

/-- Every transaction of a command names a register it reaches. -/
theorem exec_names {i : Instr} {s t : State} (h : exec i s = .next t) : LogNames (commandReaches i) s t := by
  cases i with
  | ctlRd ctl => exact execCtlRd_names h
  | ctlWr ctl => exact execCtlWr_names h
  | volFwd =>
    cases h
    split <;> exact .of_log_eq rfl
  | volInv =>
    cases h
    exact .of_log_eq rfl
  | neg =>
    cases h
    split
    · exact .of_log_eq rfl
    · exact (relockIfChanged_names _ s).finish fun _ _ => rfl
  | streamStart =>
    cases h
    exact (unmuteIfAllowed_names (s.setDs _)).finishPlain
  | streamStop =>
    cases h
    exact (streamStopPlan_names s).finishPlain
  | muteSet | muteClr =>
    cases h
    exact (writeMute_names _ (s.setDs _)).finishPlain
  | fmtSpdif =>
    cases h
    exact (fmtSpdifPlan_names s).finishPlain
  | muteMode =>
    cases h
    split
    · exact .of_log_eq rfl
    · exact (writeMute_names _ (s.setDs _)).finishPlain

/-! The bounds of the model's own definitions. -/

theorem commandTransactions_le (i : Instr) : commandTransactions i ≤ 8 := by
  cases i with
  | ctlRd ctl | ctlWr ctl =>
    simp only [commandTransactions]
    split_ifs <;> omega
  | _ => decide

/-- The registers R67 lists. -/
def readRegisters : List Byte :=
  [8#8, 10#8, 11#8, 12#8, 14#8, 15#8, 17#8, 18#8, 20#8, 21#8, 22#8, 23#8, 25#8]

theorem controlRegisters_listed (c : Control) : controlRegisters c ⊆ readRegisters := by
  cases c <;> decide

theorem registersOfId_listed (ctl : BitVec 8) : ((controlOfId ctl).map controlRegisters).getD [] ⊆ readRegisters := by
  cases controlOfId ctl with
  | none => exact List.nil_subset _
  | some c => exact controlRegisters_listed c

theorem commandReaches_listed (i : Instr) : commandReaches i ⊆ readRegisters := by
  cases i with
  | ctlRd ctl =>
    simp only [commandReaches]
    split
    · exact List.nil_subset _
    · exact registersOfId_listed ctl
  | ctlWr ctl => exact registersOfId_listed ctl
  | _ => decide

/-- Settles O50: the bounds of the run's `Effect` hold of its whole log, and each transaction there names a register of
the command's plan. -/
theorem commandsStayWithinTheirPlans : Obligations.CommandsStayWithinTheirPlans := by
  intro i s t h
  obtain ⟨d, new, u, g, hlog, hperiph, -, hpos⟩ := (run_of_exec h).effect
  have hnew : t.log = s.log ++ new := hlog.trans g.log
  refine ⟨fun a ha => ?_, commandTransactions_le i, new, hnew, g.bound, hpos.trans g.planPos, g.writes, fun e he => ?_⟩
  · rw [hperiph]
    exact g.frame a ha
  · have hreach := (exec_names h).reg_mem hnew e he
    exact ⟨hreach, commandReaches_listed i hreach⟩

end Sys2Proof.Machine
end

section
/-! Proofs on the family 30_encoding: a word is the command it decodes to, and which check a word that is no command
fails first (spec 30_encoding.md rules R90, R93, R94, R97 to R99). -/

namespace Sys2Proof

/-! The fields of a word. -/

/-- A word is its three fields put together (R90). -/
theorem word_of_fields (w : Word) : reservedField w ++ ctlField w ++ opField w = w := by
  simp only [reservedField, ctlField, opField, BitVec.extractLsb'_append_extractLsb'_eq_extractLsb']
  simp

/-- The fields of a command's word (R90). -/
theorem encode_fields (i : Instr) : Laws.Encoding.Statement i := Laws.Encoding.fields_of_word (opcodeOf i) (ctlOf i)

theorem controlIdLegal_iff (ctl : BitVec 8) : controlIdLegal ctl = true ↔ ctl.toNat ≤ 0x14 := by
  simp [controlIdLegal, BitVec.le_def]

/-! The opcode map. -/

/-- The opcodes of R93. -/
def knownOpcodes : List (BitVec 8) :=
  [0x01#8, 0x02#8, 0x10#8, 0x11#8, 0x20#8, 0x30#8, 0x31#8, 0x32#8, 0x33#8, 0x34#8, 0x35#8]

theorem commandOf_of_unknown {op : BitVec 8} (ctl : BitVec 8) (h : op ∉ knownOpcodes) : commandOf op ctl = none := by
  simp only [knownOpcodes, List.mem_cons, not_or] at h
  simp [commandOf, h]

/-- A listed opcode with a CTL field is mapped to the command whose opcode it is, with that field if the command has a
CTL operand (R93). -/
theorem commandOf_of_known {op : BitVec 8} (ctl : BitVec 8) (h : op ∈ knownOpcodes) :
    ∃ i, commandOf op ctl = some i ∧ op = opcodeOf i ∧ (i.usesCtl = true → ctlOf i = ctl) := by
  simp only [knownOpcodes, List.mem_cons, List.not_mem_nil, or_false] at h
  rcases h with rfl | rfl | rfl | rfl | rfl | rfl | rfl | rfl | rfl | rfl | rfl <;>
    exact ⟨_, rfl, rfl, by simp [ctlOf, Instr.usesCtl]⟩

theorem commandOf_eq_none {op ctl : BitVec 8} : commandOf op ctl = none ↔ op ∉ knownOpcodes := by
  refine ⟨fun h hop => ?_, commandOf_of_unknown ctl⟩
  obtain ⟨i, hi, -⟩ := commandOf_of_known ctl hop
  exact nomatch hi.symm.trans h

theorem known_of_commandOf {op ctl : BitVec 8} {i : Instr} (h : commandOf op ctl = some i) : op ∈ knownOpcodes := by
  by_contra hn
  exact nomatch h.symm.trans (commandOf_of_unknown ctl hn)

theorem commandOf_eq_some {op ctl : BitVec 8} {i : Instr} :
    commandOf op ctl = some i ↔ op = opcodeOf i ∧ (i.usesCtl = true → ctlOf i = ctl) := by
  constructor
  · intro h
    obtain ⟨j, hj, hspec⟩ := commandOf_of_known ctl (known_of_commandOf h)
    cases hj.symm.trans h
    exact hspec
  · rintro ⟨rfl, h⟩
    cases i with
    | ctlRd c | ctlWr c =>
      obtain rfl : c = ctl := h rfl
      rfl
    | _ => rfl

/-- The commands with a CTL operand are CTL.RD and CTL.WR (R90). -/
theorem usesCtl_iff_opcode (i : Instr) : i.usesCtl = true ↔ opcodeOf i = 0x10#8 ∨ opcodeOf i = 0x11#8 := by
  cases i <;> simp [Instr.usesCtl, opcodeOf]

theorem ctlOf_of_not_usesCtl {i : Instr} (h : i.usesCtl = false) : ctlOf i = 0#8 := by
  cases i with
  | ctlRd | ctlWr => cases h
  | _ => rfl

/-- A command is well-formed when the control id it carries, if any, is legal (R97). -/
theorem wellFormed_iff (i : Instr) : i.wellFormed = true ↔ (i.usesCtl = true → controlIdLegal (ctlOf i) = true) := by
  cases i <;> simp [Instr.wellFormed, Instr.usesCtl, ctlOf]

/-! Decoding, check by check. -/

/-- The checks left once the opcode is known (R98). -/
theorem decode_of_command {w : Word} {i : Instr} (h : commandOf (opField w) (ctlField w) = some i) :
    decode w =
      if reservedField w ≠ 0#16 then .error .reservedBits
      else if i.usesCtl then (if controlIdLegal (ctlField w) then .ok i else .error .badCtlId)
      else if ctlField w ≠ 0#8 then .error .reservedBits
      else .ok i := by
  simp only [decode, h]

theorem decode_of_unknown {w : Word} (h : opField w ∉ knownOpcodes) : decode w = .error .badOpcode := by
  simp only [decode, commandOf_eq_none.2 h]

/-- A word decodes to a command exactly when the opcode map gives it and the checks of R97 pass. -/
theorem decode_eq_ok {w : Word} {i : Instr} :
    decode w = .ok i ↔ commandOf (opField w) (ctlField w) = some i ∧ reservedField w = 0#16 ∧
      if i.usesCtl then controlIdLegal (ctlField w) = true else ctlField w = 0#8 := by
  cases h : commandOf (opField w) (ctlField w) with
  | none => simp [decode, h]
  | some j =>
    rw [decode_of_command h]
    by_cases hj : j = i
    · subst hj
      by_cases hres : reservedField w = 0#16
      · cases hu : j.usesCtl <;> simp [hres]
      · simp [hres]
    · split_ifs <;> simp [hj]

/-- Settles O1: the fields of a command's word are its opcode and its control id, so the map gives it back and no check
fails. -/
theorem decodeReadsBackTheEncoding : Obligations.DecodeReadsBackTheEncoding := by
  intro i hi
  obtain ⟨hop, hctl, hres⟩ := encode_fields i
  refine decode_eq_ok.2 ⟨?_, hres, ?_⟩
  · rw [hop, hctl]
    exact commandOf_eq_some.2 ⟨rfl, fun _ => rfl⟩
  · rw [hctl]
    split
    · next hu => exact (wellFormed_iff i).1 hi hu
    · next hu => exact ctlOf_of_not_usesCtl (Bool.eq_false_iff.2 hu)

/-- Settles O2: the checks a word has passed say that its fields are those of the command's word. -/
theorem encodingGivesBackTheDecodedWord : Obligations.EncodingGivesBackTheDecodedWord := by
  intro w i h
  obtain ⟨hcmd, hres, hchecks⟩ := decode_eq_ok.1 h
  obtain ⟨hop, hctl⟩ := commandOf_eq_some.1 hcmd
  have hfield : ctlOf i = ctlField w := by
    cases hu : i.usesCtl with
    | true => exact hctl hu
    | false =>
      rw [hu] at hchecks
      exact (ctlOf_of_not_usesCtl hu).trans hchecks.symm
  refine ⟨?_, (wellFormed_iff i).2 fun hu => ?_⟩
  · calc encode i = reservedField w ++ ctlField w ++ opField w := by rw [hres, hop, ← hfield]; rfl
      _ = w := word_of_fields w
  · rw [hu] at hchecks
    rw [hfield]
    exact hchecks

/-- Settles O3: an unknown opcode fails first; for a known one the checks left are exclusive. -/
theorem firstFailingDecodeCheckGivesTheSubCode : Obligations.FirstFailingDecodeCheckGivesTheSubCode := by
  intro w
  dsimp only
  rw [show ([0x01#8, 0x02#8, 0x10#8, 0x11#8, 0x20#8, 0x30#8, 0x31#8, 0x32#8, 0x33#8, 0x34#8, 0x35#8] :
    List (BitVec 8)) = knownOpcodes from rfl]
  cases h : commandOf (opField w) (ctlField w) with
  | none =>
    have hop := commandOf_eq_none.1 h
    have hctl : ¬ (opField w = 0x10#8 ∨ opField w = 0x11#8) := by
      rintro (h' | h') <;> rw [h'] at hop <;> exact hop (by decide)
    simp [decode_of_unknown hop, hop, hctl]
  | some i =>
    have hop := known_of_commandOf h
    have hctl : (opField w = 0x10#8 ∨ opField w = 0x11#8) ↔ i.usesCtl = true := by
      rw [(commandOf_eq_some.1 h).1, usesCtl_iff_opcode]
    rw [decode_of_command h, hctl, ← Nat.not_le, ← controlIdLegal_iff]
    by_cases hres : reservedField w = 0#16
    · cases hu : i.usesCtl with
      | true => by_cases hl : controlIdLegal (ctlField w) = true <;> simp [hop, hres, hl]
      | false => by_cases hc : ctlField w = 0#8 <;> simp [hop, hres, hc]
    · simp [hop, hres]

/-- Settles O4, word by word. -/
theorem wordsOfTheSpecDecode : Obligations.WordsOfTheSpecDecode := by
  unfold Obligations.WordsOfTheSpecDecode
  decide

end Sys2Proof
end

section
/-! Proofs on the family 30_encoding: acceptance of a command word, and the control table (spec 30_encoding.md rules
R91, R94, R97, 41_control_registry.md rules R140, R143). -/

namespace Sys2Proof.Machine

/-! The step that accepts a word. -/

theorem windowWrite_cmd (w : Word) {s : State} (hi : s.fsm = .idle) : windowWrite .cmd w s = runCommand w s := by
  simp [windowWrite, hi]

section Accept
variable {s : State} {w : Word} {rest : List HostMove}

/-- A write of a word to `CMD` of an idle block is `runCommand` of that word (R22, R91). -/
theorem step_cmd_idle (ha : s.attached = true) (hi : s.fsm = .idle) (hm : s.host.moves = .write 0x00 4 w :: rest) :
    step s = runCommand w (s.setMoves rest) := by
  rw [step_write (r := .cmd) ha hm rfl, windowWrite_cmd w (s := s.setMoves rest) hi]

theorem step_cmd_ok {i : Instr} (ha : s.attached = true) (hi : s.fsm = .idle)
    (hm : s.host.moves = .write 0x00 4 w :: rest) (hd : decode w = .ok i) :
    step s = exec i (busyPoint (accept w (s.setMoves rest))) := by
  simp only [step_cmd_idle ha hi hm, runCommand, hd]

theorem step_cmd_error {e : DecodeError} (ha : s.attached = true) (hi : s.fsm = .idle)
    (hm : s.host.moves = .write 0x00 4 w :: rest) (hd : decode w = .error e) :
    step s = .next (endCommand (decodeReport e) 0#8 (busyPoint (accept w (s.setMoves rest)))) := by
  simp only [step_cmd_idle ha hi hm, runCommand, hd]

/-- A write to `CMD` of a BUSY block is dropped (R24). -/
theorem step_cmd_busy (ha : s.attached = true) (hb : s.fsm = .busy) (hm : s.host.moves = .write 0x00 4 w :: rest) :
    step s = .next (s.setMoves rest).setOverrun := by
  rw [step_write (r := .cmd) ha hm rfl, windowWrite_busy w (s := s.setMoves rest) hb rfl]

end Accept

/-- Settles O5: the write reaches `CMD`, and the word decodes. -/
theorem stepRunsTheDecodedCommand : Obligations.StepRunsTheDecodedCommand :=
  fun _ _ _ _ ha hi hm hd => step_cmd_ok ha hi hm hd

/-- Settles O6: each field is as `accept` sets or leaves it, and the step goes on by what the word decodes to. -/
theorem acceptanceLatchesAndClears : Obligations.AcceptanceLatchesAndClears := by
  intro s w rest ha hm
  refine ⟨fun hi => ?_, fun hb => step_cmd_busy ha hb hm⟩
  have hframe : SameResults s (accept w (s.setMoves rest)) := ⟨rfl, rfl, rfl, rfl, rfl⟩
  exact ⟨rfl, rfl, rfl, rfl, rfl, rfl, rfl, ⟨hframe, rfl, rfl, rfl, rfl, rfl, rfl, rfl, rfl, rfl, rfl⟩,
    fun _ => step_cmd_ok ha hi hm, fun _ => step_cmd_error ha hi hm⟩

/-! The control table. -/

/-- The legal values of MONO_PHASE: the patterns of bits 7, 1 and 0 (R140). -/
def monoPhaseValues : List Nat := [0x00, 0x01, 0x02, 0x03, 0x80, 0x81, 0x82, 0x83]

/-- Where the other bits are 0 the value is at most 0x83. -/
theorem toNat_le_of_monoPhase {v : Word} (h : v &&& 0xFFFFFF7C#32 = 0#32) : v.toNat ≤ 0x83 := by
  have hv : v = v &&& 0x83#32 := by
    calc v = v &&& (0x83#32 ||| 0xFFFFFF7C#32) := (BitVec.and_allOnes (x := v)).symm
      _ = v &&& 0x83#32 := by rw [BitVec.and_or_distrib_left, h, BitVec.or_zero]
  rw [hv, BitVec.toNat_and]
  exact Nat.and_le_right

theorem monoPhase_legal_iff (v : Word) : v &&& 0xFFFFFF7C#32 = 0#32 ↔ v.toNat ∈ monoPhaseValues := by
  have small : ∀ n ≤ 0x83, BitVec.ofNat 32 n &&& 0xFFFFFF7C#32 = 0#32 ↔ n ∈ monoPhaseValues := by decide
  have listed : ∀ n ∈ monoPhaseValues, n ≤ 0x83 := by decide
  have bound (h : v.toNat ≤ 0x83) : v &&& 0xFFFFFF7C#32 = 0#32 ↔ v.toNat ∈ monoPhaseValues := by
    simpa only [BitVec.ofNat_toNat, BitVec.setWidth_eq] using small v.toNat h
  exact ⟨fun h => (bound (toNat_le_of_monoPhase h)).1 h, fun h => (bound (listed _ h)).2 h⟩

/-- The range check is the column of the table (R140, R143). -/
theorem legalValue_iff (c : Control) (v : Word) : legalValue c v = true ↔ tableAllows c v.toNat := by
  cases c with
  | monoPhase => exact decide_eq_true_iff.trans (monoPhase_legal_iff v)
  | mute | spdifForce | deemphDisable | jitterReduction | firRolloff | differential | spdifAutodetect | dpllReset
  | osfBypass => exact decide_eq_true_iff.trans Nat.le_one_iff_eq_zero_or_eq_one
  | _ => exact decide_eq_true_iff

theorem controlOfId_eq_none (ctl : BitVec 8) : controlOfId ctl = none ↔ 0x14 < ctl.toNat := by
  rw [← Option.not_isSome_iff_eq_none, controlOfId_isSome, controlIdLegal_iff, Nat.not_le]

/-- Settles O18: the range check row by row, and the table's other columns by going through its rows. -/
theorem legalValuesAreTheTables : Obligations.LegalValuesAreTheTables :=
  ⟨legalValue_iff, rfl, fun c => by cases c <;> decide, by decide, controlOfId_eq_none⟩

end Sys2Proof.Machine
end

section
/-! Proofs on the family 30_encoding: the result registers of a command, and the operands it ignores (spec
30_encoding.md rules R92, R96). -/

namespace Sys2Proof.Machine

/-! The result registers. -/

theorem SameResults.trans {s t u : State} (h : SameResults s t) (g : SameResults t u) : SameResults s u := by
  obtain ⟨h0, h1, h2, h3, h4⟩ := h
  obtain ⟨g0, g1, g2, g3, g4⟩ := g
  exact ⟨g0.trans h0, g1.trans h1, g2.trans h2, g3.trans h3, g4.trans h4⟩

theorem SameResults.butRes0 {s t : State} (h : SameResults s t) : SameResultsButRes0 s t := by
  obtain ⟨-, h1, h2, h3, h4⟩ := h
  exact ⟨h1, h2, h3, h4⟩

theorem Effect.sameResults {regs : List Byte} {n : Nat} {new : List PortEvent} {s t : State}
    (h : Effect regs n new s t) : SameResults s t :=
  ⟨h.res0, h.res1, h.res2, h.res3, h.res4⟩

/-- A command that ends with an error writes no result (R96). -/
theorem ResultStep.eq_of_error {i : Instr} {e : Report} {addr : Byte} {u v : State} (h : ResultStep i e addr u v)
    (he : e ≠ .ok) : v = u := by
  cases i with
  | volFwd | volInv | neg | ctlRd =>
    rcases h with ⟨hok, -⟩ | ⟨-, hv⟩
    · exact absurd hok he
    · exact hv
  | _ => exact h

/-- No command but NEG writes a result register but `RES0` (R96). -/
theorem ResultStep.sameResultsButRes0 {i : Instr} {e : Report} {addr : Byte} {u v : State}
    (h : ResultStep i e addr u v) (hi : i ≠ .neg) : SameResultsButRes0 u v := by
  rcases h.writes with rfl | ⟨x, rfl⟩ | ⟨-, rfl⟩ | ⟨hneg, -⟩
  · exact ⟨rfl, rfl, rfl, rfl⟩
  · exact ⟨rfl, rfl, rfl, rfl⟩
  · exact ⟨rfl, rfl, rfl, rfl⟩
  · exact absurd hneg hi

/-- The results of a run: as they were, or what the command wrote at its end (R96). -/
theorem CommandRun.results {i : Instr} {s t : State} (h : CommandRun i s t) :
    SameResults s t ∨ ∃ e addr u v, SameResults s u ∧ ResultStep i e addr u v ∧ t = endCommand e addr v := by
  cases h with
  | hung d pre e u _ g => exact .inl g.sameResults
  | left d new u _ g => exact .inl g.sameResults
  | ended d new u v e addr _ g hr => exact .inr ⟨e, addr, u, v, g.sameResults, hr, rfl⟩

/-- Settles O48: the transactions of a command write no result, and its end writes those that its `ResultStep` names. -/
theorem resultsChangeOnlyOnSuccess : Obligations.ResultsChangeOnlyOnSuccess := by
  intro i s t _ h
  rcases (run_of_exec h).results with hs | ⟨e, addr, u, v, hu, hr, rfl⟩
  · exact ⟨fun _ => hs, fun _ => hs.butRes0, fun _ => hs⟩
  refine ⟨fun he => ?_, fun hi => ?_, fun hi => ?_⟩
  · have hne : e ≠ .ok := he.resolve_left nofun
    rw [hr.eq_of_error hne]
    exact hu
  · obtain ⟨u1, u2, u3, u4⟩ := hu.butRes0
    obtain ⟨v1, v2, v3, v4⟩ := hr.sameResultsButRes0 (by rintro rfl; simp at hi)
    exact ⟨v1.trans u1, v2.trans u2, v3.trans u3, v4.trans u4⟩
  · have hv : v = u := by
      rcases hi with ⟨ctl, rfl⟩ | hi
      · exact hr
      · simp only [List.mem_cons, List.not_mem_nil, or_false] at hi
        rcases hi with rfl | rfl | rfl | rfl | rfl | rfl <;> exact hr
    rw [hv]
    exact hu

/-! The latched operands, replaced. -/

/-- The state with the latched `ARG0` passed through `f` and the latched `ARG1` replaced by `y`. -/
def State.mapOperands (f : Word → Word) (y : Word) (s : State) : State := { s with opArg0 := f s.opArg0, opArg1 := y }

/-- A plan's result with its state passed through `g`. -/
def PlanResult.mapState {α : Type} (g : State → State) : PlanResult α → PlanResult α
  | .done a s => .done a (g s)
  | .raised e addr s => .raised e addr (g s)
  | .stopped s => .stopped (g s)

/-- A plan does the same whatever the latched operands are. -/
def IgnoresOperands {α : Type} (p : Plan α) : Prop :=
  ∀ f y s, p (s.mapOperands f y) = (p s).mapState (State.mapOperands f y)

section Operands
variable (f : Word → Word) (y : Word)

theorem State.mapOperands_ds (s : State) : (s.mapOperands f y).ds = s.ds := rfl

theorem State.mapOperands_useAnswer (s : State) :
    (s.mapOperands f y).useAnswer = s.useAnswer.mapOperands f y := rfl

theorem State.mapOperands_outcomeAt (s : State) (k : Nat) : (s.mapOperands f y).outcomeAt k = s.outcomeAt k := rfl

/-- No register of the window shows a latched operand (R23). -/
theorem windowRead_mapOperands (r : WinReg) (s : State) : windowRead r (s.mapOperands f y) = windowRead r s := by
  cases r <;> rfl

theorem busyAccess_mapOperands (a : WinAccess) (s : State) :
    busyAccess a (s.mapOperands f y) = (busyAccess a s).mapOperands f y := by
  cases a with
  | read r => simp only [busyAccess, windowRead_mapOperands]; rfl
  | write r v => cases hr : r.droppedWhileBusy <;> simp only [busyAccess, hr] <;> rfl

theorem busyAccesses_mapOperands (as : List WinAccess) (s : State) :
    busyAccesses as (s.mapOperands f y) = (busyAccesses as s).mapOperands f y := by
  induction as generalizing s with
  | nil => rfl
  | cons a as ih => rw [busyAccesses_cons, busyAccesses_cons, busyAccess_mapOperands, ih]

theorem busyPoint_mapOperands (s : State) :
    busyPoint (s.mapOperands f y) = (busyPoint s).mapOperands f y := by
  cases h : s.host.meanwhile with
  | nil => simp [busyPoint, State.mapOperands, h]
  | cons as rest =>
    rw [busyPoint_cons h, busyPoint_cons (s := s.mapOperands f y) h]
    exact busyAccesses_mapOperands f y as (s.setMeanwhile rest)

end Operands

/-! The plans do not look at the latched operands. -/

theorem planPure_ignores {α : Type} (a : α) : IgnoresOperands (planPure a) := fun _ _ _ => rfl

theorem IgnoresOperands.bind {α β : Type} {p : Plan α} {q : α → Plan β} (hp : IgnoresOperands p)
    (hq : ∀ a, IgnoresOperands (q a)) : IgnoresOperands (planBind p q) := by
  intro f y s
  simp only [planBind, hp f y s]
  cases p s with
  | done a t => exact hq a f y t
  | raised e addr t => rfl
  | stopped t => rfl

theorem memRead_ignores (a : Byte) : IgnoresOperands (memRead a) := by
  intro f y s
  simp only [memRead, State.mapOperands_useAnswer, busyPoint_mapOperands, State.mapOperands_outcomeAt]
  rcases s.outcomeAt 0 with _ | _ | _ | _ <;> rfl

theorem memWrite_ignores (a v : Byte) : IgnoresOperands (memWrite a v) := by
  intro f y s
  simp only [memWrite, State.mapOperands_useAnswer, busyPoint_mapOperands, State.mapOperands_outcomeAt]
  rcases s.outcomeAt 0 with _ | _ | _ | _ <;> rfl

theorem fieldWrite_ignores (reg mask : Byte) (shift : Nat) (code : Byte) :
    IgnoresOperands (fieldWrite reg mask shift code) := by
  unfold fieldWrite
  split
  · exact memWrite_ignores reg code
  · exact (memRead_ignores reg).bind fun b => memWrite_ignores reg _

theorem fieldRead_ignores (reg mask : Byte) (shift : Nat) : IgnoresOperands (fieldRead reg mask shift) :=
  (memRead_ignores reg).bind fun _ => planPure_ignores _

theorem writeMute_ignores (v : Bool) : IgnoresOperands (writeMute v) := fieldWrite_ignores _ _ _ _

/-- A plan that updates DeviceState and then goes on as it stands (R210). -/
theorem IgnoresOperands.setDs {α : Type} {p : Plan α} (hp : IgnoresOperands p) (g : DeviceState → DeviceState) :
    IgnoresOperands fun s => p (s.setDs (g s.ds)) :=
  fun f y s => hp f y (s.setDs (g s.ds))

theorem unmuteIfAllowed_ignores : IgnoresOperands unmuteIfAllowed := by
  intro f y s
  simp only [unmuteIfAllowed]
  rw [State.mapOperands_ds]
  split
  · rfl
  · exact writeMute_ignores false f y s

theorem applyMute_ignores : IgnoresOperands applyMute := fun f y s => writeMute_ignores s.ds.eff f y s

theorem streamStartPlan_ignores : IgnoresOperands streamStartPlan :=
  unmuteIfAllowed_ignores.setDs fun d => { d with streamMuted := false }

theorem streamStopPlan_ignores : IgnoresOperands streamStopPlan := by
  intro f y s
  simp only [streamStopPlan]
  rw [State.mapOperands_ds]
  split
  · exact (writeMute_ignores true).setDs (fun d => { d with streamMuted := true }) f y s
  · rfl

theorem muteSetPlan_ignores : IgnoresOperands muteSetPlan :=
  applyMute_ignores.setDs fun d => { d with forceMute := true }

theorem muteClrPlan_ignores : IgnoresOperands muteClrPlan :=
  applyMute_ignores.setDs fun d => { d with forceMute := false }

theorem muteModePlan_ignores (m : MuteMode) : IgnoresOperands (muteModePlan m) :=
  applyMute_ignores.setDs fun d => { d with muteMode := m }

theorem fmtSpdifPlan_ignores : IgnoresOperands fmtSpdifPlan :=
  (writeMute_ignores true).bind fun _ => (fieldWrite_ignores _ _ _ _).bind fun _ =>
    (fieldWrite_ignores _ _ _ _).bind fun _ => unmuteIfAllowed_ignores

theorem volWrite_ignores (i : Nat) : IgnoresOperands (volWrite i) := fun f y s =>
  ((memWrite_ignores 23#8 _).bind fun _ => (memWrite_ignores 22#8 _).bind fun _ =>
    (memWrite_ignores 21#8 _).bind fun _ => memWrite_ignores 20#8 _) f y s

theorem volRead_ignores : IgnoresOperands volRead :=
  (memRead_ignores _).bind fun _ => (memRead_ignores _).bind fun _ => (memRead_ignores _).bind fun _ =>
    (memRead_ignores _).bind fun _ _ _ _ => rfl

theorem readControl_ignores (c : Control) : IgnoresOperands (readControl c) := by
  cases c with
  | mute => exact fun _ _ _ => rfl
  | volume => exact volRead_ignores.bind fun _ => planPure_ignores _
  | outputRemap | spdifChannel => exact (memRead_ignores _).bind fun _ => planPure_ignores _
  | _ => exact (fieldRead_ignores _ _ _).bind fun _ => planPure_ignores _

theorem writeControl_ignores (c : Control) (v : Word) : IgnoresOperands (writeControl c v) := by
  cases c with
  | volume => exact volWrite_ignores v.toNat
  | mute =>
    show IgnoresOperands (if v = 1#32 then muteSetPlan else muteClrPlan)
    split
    · exact muteSetPlan_ignores
    · exact muteClrPlan_ignores
  | _ => exact fieldWrite_ignores _ _ _ _

/-! The commands. -/

theorem finishPlain_ignores {p : Plan Unit} (hp : IgnoresOperands p) (f : Word → Word) (y : Word) (s : State) :
    finishPlain (p (s.mapOperands f y)) = (finishPlain (p s)).mapOperands f y := by
  rw [hp f y s]
  cases p s <;> rfl

theorem finishRead_ignores {p : Plan Word} (hp : IgnoresOperands p) (f : Word → Word) (y : Word) (s : State) :
    finishRead (p (s.mapOperands f y)) = (finishRead (p s)).mapOperands f y := by
  rw [hp f y s]
  cases p s <;> rfl

/-- The commands that have no operand (R92). -/
def ignoresOperands : Instr → Bool
  | .ctlRd _ | .streamStart | .streamStop | .muteSet | .muteClr | .fmtSpdif => true
  | .volFwd | .volInv | .ctlWr _ | .neg | .muteMode => false

/-- A command without operands does the same whatever the latched operands are. -/
theorem exec_mapOperands {i : Instr} {s t : State} (hi : ignoresOperands i = true) (f : Word → Word) (y : Word)
    (h : exec i s = .next t) : exec i (s.mapOperands f y) = .next (t.mapOperands f y) := by
  cases i with
  | ctlRd ctl =>
    cases h
    simp only [exec, execCtlRd]
    split
    · rfl
    · rw [finishRead_ignores (readControl_ignores _)]
  | streamStart => cases h; exact congrArg _ (finishPlain_ignores streamStartPlan_ignores f y s)
  | streamStop => cases h; exact congrArg _ (finishPlain_ignores streamStopPlan_ignores f y s)
  | muteSet => cases h; exact congrArg _ (finishPlain_ignores muteSetPlan_ignores f y s)
  | muteClr => cases h; exact congrArg _ (finishPlain_ignores muteClrPlan_ignores f y s)
  | fmtSpdif => cases h; exact congrArg _ (finishPlain_ignores fmtSpdifPlan_ignores f y s)
  | volFwd | volInv | ctlWr | neg | muteMode => cases hi

/-- A command that has `ARG0` alone for an operand does the same whatever the latched `ARG1` is. -/
theorem exec_arg1 {i : Instr} {s t : State} (hi : i ≠ .neg) (y : Word) (h : exec i s = .next t) :
    exec i (s.mapOperands id y) = .next (t.mapOperands id y) := by
  have hop : (s.mapOperands id y).opArg0 = s.opArg0 := rfl
  cases i with
  | neg => exact absurd rfl hi
  | volFwd =>
    cases h
    simp only [exec, execVolFwd, hop]
    split <;> rfl
  | volInv => cases h; rfl
  | ctlWr ctl =>
    cases h
    simp only [exec, execCtlWr, hop]
    split
    · rfl
    · split
      · rw [finishPlain_ignores (writeControl_ignores _ _)]
      · rfl
  | muteMode =>
    cases h
    simp only [exec, execMuteMode, hop]
    split
    · rfl
    · rw [finishPlain_ignores (muteModePlan_ignores _)]
  | ctlRd | streamStart | streamStop | muteSet | muteClr | fmtSpdif => exact exec_mapOperands rfl id y h

/-- Settles O55: both replacements pass each latched operand through a function, which no plan looks at. -/
theorem ignoredOperandsHaveNoEffect : Obligations.IgnoredOperandsHaveNoEffect := by
  intro i s t x y h
  refine ⟨fun hi => exec_arg1 hi y h, fun hi => exec_mapOperands ?_ (fun _ => x) y h⟩
  rcases hi with ⟨ctl, rfl⟩ | hi
  · rfl
  · simp only [List.mem_cons, List.not_mem_nil, or_false] at hi
    rcases hi with rfl | rfl | rfl | rfl | rfl <;> rfl

end Sys2Proof.Machine
end

section
/-! Proofs on the family 40_volume: the forward and the inverse mapping of the volume curve (spec 40_volume.md rules R122
to R129). -/

namespace Sys2Proof.Machine

/-! The table. -/

/-- P1 of R122, which the type of an entry gives. -/
theorem entry_lt (c : Cfg) (j : Nat) : c.entry j < 2 ^ 31 := BitVec.isLt _

theorem cfg_wellFormed_iff (c : Cfg) :
    c.wellFormed = true ↔ c.entry 0 = 0x7FFFFFFF ∧ ∀ j < 15, c.entry (j + 1) < c.entry j := by
  simp [Cfg.wellFormed]

theorem cfg_exactTable_iff (c : Cfg) :
    c.exactTable = true ↔ (∀ j < 15, c.entry (j + 1) + 4096 ≤ c.entry j) ∧ 0x40001000 ≤ c.entry 15 := by
  simp [Cfg.exactTable]

/-- P2 over any two of the entries 0 to 15. -/
theorem entry_antitone {c : Cfg} (hc : c.wellFormed = true) {i j : Nat} (hij : i ≤ j) (hj : j ≤ 15) :
    c.entry j ≤ c.entry i := by
  obtain ⟨-, hlt⟩ := (cfg_wellFormed_iff c).1 hc
  induction j, hij using Nat.le_induction with
  | base => exact le_rfl
  | succ j _ ih => exact (hlt j (by omega)).le.trans (ih (by omega))

/-- P3 bounds every entry from below, entry 15 being the least. -/
theorem le_entry_of_exactTable {c : Cfg} (hc : c.wellFormed = true) (hx : c.exactTable = true) {j : Nat} (hj : j ≤ 15) :
    0x40001000 ≤ c.entry j :=
  ((cfg_exactTable_iff c).1 hx).2.trans (entry_antitone hc hj le_rfl)

theorem entry_congr {c d : Cfg} (h : c.volRef = d.volRef) : c.entry = d.entry := by
  funext j
  simp only [Cfg.entry, h]

/-! The forward mapping. -/

@[simp] theorem volForward_last (c : Cfg) : volForward c 199 = 0 := rfl

theorem volForward_of_lt (c : Cfg) {i : Nat} (hi : i < 199) :
    volForward c i = c.entry (i % 16) / 2 ^ (i / 16) := by
  rw [volForward, if_neg (show i ≠ maxAtten from hi.ne), Nat.shiftRight_eq_div_pow]

theorem volForward_lt (c : Cfg) (i : Nat) : volForward c i < 2 ^ 31 := by
  unfold volForward
  split
  · decide
  · exact (Nat.shiftRight_le _ _).trans_lt (entry_lt c _)

theorem volForward_bit31 (c : Cfg) (i : Nat) : (BitVec.ofNat 32 (volForward c i)).getLsbD 31 = false := by
  rw [BitVec.getLsbD_ofNat, Nat.testBit_lt_two_pow (volForward_lt c i), Bool.and_false]

/-- Settles O12: the special case of index 199, and the shift as a division. -/
theorem volForwardIsAShiftedEntry : Obligations.VolForwardIsAShiftedEntry := by
  intro c i
  refine ⟨?_, volForward_of_lt c, fun _ => volForward_lt c i⟩
  rintro rfl
  exact volForward_last c

/-- Within an octave the forward mapping follows the table. -/
theorem volForward_le_of_same_octave {c : Cfg} (hc : c.wellFormed = true) {i j : Nat} (hij : i ≤ j) (hj : j ≤ 199)
    (hoct : i / 16 = j / 16) : volForward c j ≤ volForward c i := by
  rcases hj.lt_or_eq with hlt | rfl
  · rw [volForward_of_lt c hlt, volForward_of_lt c (hij.trans_lt hlt), hoct]
    exact Nat.div_le_div_right (entry_antitone hc (by omega) (by omega))
  · simp

/-- From one octave to the next the forward mapping goes from entry 15 to half of entry 0. -/
theorem volForward_succ_le {c : Cfg} (hc : c.wellFormed = true) (h15 : c.entry 0 / 2 ≤ c.entry 15) {i : Nat}
    (hi : i < 199) : volForward c (i + 1) ≤ volForward c i := by
  by_cases hmod : i % 16 = 15
  · rw [volForward_of_lt c hi, volForward_of_lt c (by omega), hmod, show (i + 1) % 16 = 0 by omega,
      show (i + 1) / 16 = i / 16 + 1 by omega, pow_succ', ← Nat.div_div_eq_div_mul]
    exact Nat.div_le_div_right h15
  · exact volForward_le_of_same_octave hc (Nat.le_succ i) hi (by omega)

theorem volForward_antitone {c : Cfg} (hc : c.wellFormed = true) (h15 : c.entry 0 / 2 ≤ c.entry 15) {i j : Nat}
    (hij : i ≤ j) (hj : j ≤ 199) : volForward c j ≤ volForward c i := by
  induction j, hij using Nat.le_induction with
  | base => exact le_rfl
  | succ j _ ih => exact (volForward_succ_le hc h15 hj).trans (ih (by omega))

/-- The bound on entry 15 is what indices 15 and 16 need, and no other pair needs more. -/
theorem volForward_antitone_iff {c : Cfg} (hc : c.wellFormed = true) :
    (∀ i j : Nat, i ≤ j → j ≤ 199 → volForward c j ≤ volForward c i) ↔ c.entry 0 / 2 ≤ c.entry 15 := by
  refine ⟨fun h => ?_, fun h15 _ _ => volForward_antitone hc h15⟩
  simpa [volForward_of_lt] using h 15 16 (by decide) (by decide)

/-! The octave of a magnitude. -/

theorem le_of_mul_two_pow_le_of_lt {top m k k' : Nat} (hle : m * 2 ^ k' ≤ top) (hlt : top < m * 2 ^ (k + 1)) : k' ≤ k :=
  Nat.le_of_lt_succ ((Nat.pow_lt_pow_iff_right Nat.one_lt_two).1 (Nat.lt_of_mul_lt_mul_left (hle.trans_lt hlt)))

/-- The octaves the loop reaches from octave `k` are those whose shifted magnitude is at most `top`, if its rounds are
enough. -/
theorem le_octaveLoop_iff {top m k' : Nat} (fuel k : Nat) (hfuel : top < m * 2 ^ (k + fuel + 1)) :
    k' ≤ octaveLoop top m fuel k ↔ k' ≤ k ∨ m * 2 ^ k' ≤ top := by
  induction fuel generalizing k with
  | zero => exact ⟨.inl, fun h => h.elim id fun hle => le_of_mul_two_pow_le_of_lt hle hfuel⟩
  | succ fuel ih =>
    rw [octaveLoop, Nat.shiftLeft_eq]
    split
    · next hle =>
      rw [ih (k + 1) (by rwa [Nat.add_right_comm k 1 fuel])]
      refine ⟨fun h => ?_, fun h => h.imp_left Nat.le_succ_of_le⟩
      rcases h with hk | h
      · rcases Nat.le_succ_iff.1 hk with hk | rfl
        · exact .inl hk
        · exact .inr hle
      · exact .inr h
    · next hlt => exact ⟨.inl, fun h => h.elim id fun hle => le_of_mul_two_pow_le_of_lt hle (Nat.lt_of_not_le hlt)⟩

/-- The octave the loop of R124 ends with. -/
def octave (c : Cfg) (m : Nat) : Nat := octaveLoop (c.entry 0) m 31 0

theorem le_octave_iff (c : Cfg) {m k : Nat} (hm : 0 < m) : k ≤ octave c m ↔ k = 0 ∨ m * 2 ^ k ≤ c.entry 0 := by
  have hfuel : c.entry 0 < m * 2 ^ (0 + 31 + 1) := by
    have := entry_lt c 0
    omega
  rw [octave, le_octaveLoop_iff 31 0 hfuel, Nat.le_zero]

theorem entry_lt_next_octave (c : Cfg) {m : Nat} (hm : 0 < m) : c.entry 0 < m * 2 ^ (octave c m + 1) :=
  Nat.lt_of_not_le fun hle => Nat.not_succ_le_self _ ((le_octave_iff c hm).2 (.inr hle))

theorem octave_le (c : Cfg) {m : Nat} (hm : 0 < m) : octave c m ≤ 30 := by
  by_contra hlt
  have hle := ((le_octave_iff c hm).1 (show 31 ≤ octave c m by omega)).resolve_left (by decide)
  have := entry_lt c 0
  omega

theorem octave_eq {c : Cfg} {m k : Nat} (hm : 0 < m) (hle : m * 2 ^ k ≤ c.entry 0) (hlt : c.entry 0 < m * 2 ^ (k + 1)) :
    octave c m = k := by
  refine Nat.le_antisymm ?_ ((le_octave_iff c hm).2 (.inr hle))
  rcases (le_octave_iff c hm).1 (le_refl (octave c m)) with h0 | h
  · exact h0 ▸ Nat.zero_le k
  · exact le_of_mul_two_pow_le_of_lt h hlt

theorem octave_antitone (c : Cfg) {m n : Nat} (hm : 0 < m) (hmn : m ≤ n) : octave c n ≤ octave c m := by
  refine (le_octave_iff c hm).2 (((le_octave_iff c (hm.trans_le hmn)).1 le_rfl).imp_right fun h => ?_)
  exact (Nat.mul_le_mul_right _ hmn).trans h

/-! The halfstep of a magnitude in its octave. -/

/-- The table scan of R124 is the library's search for the greatest number with a property. -/
theorem tableScan_eq_findGreatest (c : Cfg) (t n : Nat) :
    tableScan c t n = Nat.findGreatest (fun j => t ≤ c.entry j) n := by
  induction n with
  | zero => rfl
  | succ n ih => rw [tableScan, Nat.findGreatest_succ, ih]

theorem tableScan_eq_iff (c : Cfg) (t : Nat) {n j : Nat} :
    tableScan c t n = j ↔ j ≤ n ∧ (j ≠ 0 → t ≤ c.entry j) ∧ ∀ j', j < j' → j' ≤ n → c.entry j' < t := by
  simp only [tableScan_eq_findGreatest, Nat.findGreatest_eq_iff, not_le]

theorem tableScan_le (c : Cfg) (t n : Nat) : tableScan c t n ≤ n := ((tableScan_eq_iff c t).1 rfl).1

theorem tableScan_antitone (c : Cfg) (n : Nat) {t u : Nat} (htu : t ≤ u) : tableScan c u n ≤ tableScan c t n := by
  simp only [tableScan_eq_findGreatest]
  exact Nat.findGreatest_mono_left (fun _ => htu.trans) n

/-- The halfstep the scan of R124 gives for a magnitude shifted to the top octave. -/
def halfstep (c : Cfg) (m : Nat) : Nat := tableScan c (m * 2 ^ octave c m) 15

/-! The inverse mapping. -/

@[simp] theorem volInverse_zero (c : Cfg) : volInverse c 0 = 199 := rfl

theorem volInverse_of_pos (c : Cfg) {m : Nat} (hm : 0 < m) :
    volInverse c m = min (16 * octave c m + halfstep c m) 199 := by
  rw [volInverse, if_neg hm.ne', halfstep, ← Nat.shiftLeft_eq]
  rfl

theorem volInverse_le (c : Cfg) (m : Nat) : volInverse c m ≤ 199 := by
  unfold volInverse
  split
  · exact le_rfl
  · exact Nat.min_le_right _ _

/-- Settles O13: the octave and the halfstep are the greatest numbers of their kind; under P0 entry 0 serves where the scan
finds no other. -/
theorem volInverseIsTheOctaveAndEntry : Obligations.VolInverseIsTheOctaveAndEntry := by
  refine fun c => ⟨volInverse_zero c, fun m hm hlt => ?_⟩
  have shifted {k : Nat} (hk0 : 0 < k) (hk : k ≤ octave c m) : m * 2 ^ k ≤ c.entry 0 :=
    ((le_octave_iff c hm).1 hk).resolve_left hk0.ne'
  obtain ⟨hj, hentry, hmax⟩ := (tableScan_eq_iff c (m * 2 ^ octave c m) (j := halfstep c m)).1 rfl
  refine ⟨octave c m, halfstep c m, octave_le c hm, entry_lt_next_octave c hm, fun _ => shifted, hj, hentry, hmax, ?_,
    volInverse_of_pos c hm⟩
  intro hP0
  by_cases hj0 : halfstep c m = 0
  · rw [hj0]
    rcases (octave c m).eq_zero_or_pos with hk0 | hk0
    · rw [hk0]
      omega
    · exact shifted hk0 le_rfl
  · exact hentry hj0

/-- A greater magnitude has a lesser octave, or the same octave and a halfstep that is no greater. -/
theorem volInverse_antitone (c : Cfg) : Antitone (volInverse c) := by
  intro m n hmn
  rcases m.eq_zero_or_pos with rfl | hm
  · exact volInverse_le c n
  · rw [volInverse_of_pos c hm, volInverse_of_pos c (hm.trans_le hmn)]
    apply min_le_min_right
    rcases (octave_antitone c hm hmn).lt_or_eq with hlt | heq
    · have := tableScan_le c (n * 2 ^ octave c n) 15
      unfold halfstep
      omega
    · unfold halfstep
      rw [heq]
      exact Nat.add_le_add_left (tableScan_antitone c 15 (Nat.mul_le_mul_right _ hmn)) _

/-! The round trip. -/

/-- Under P3 an entry shifted right by up to 12 octaves keeps its octave and its halfstep: what the shift drops is less than
4096, which neither doubles it up to entry 0 nor takes it down to the next entry. -/
theorem octave_halfstep_of_shifted {c : Cfg} (hc : c.wellFormed = true) (hx : c.exactTable = true) {j k : Nat}
    (hj : j ≤ 15) (hk : k ≤ 12) :
    0 < c.entry j / 2 ^ k ∧ octave c (c.entry j / 2 ^ k) = k ∧ halfstep c (c.entry j / 2 ^ k) = j := by
  obtain ⟨hP0, -⟩ := (cfg_wellFormed_iff c).1 hc
  obtain ⟨hgap, -⟩ := (cfg_exactTable_iff c).1 hx
  have hlow := le_entry_of_exactTable hc hx hj
  have hdrop : 2 ^ k ≤ 4096 := Nat.pow_le_pow_right Nat.two_pos hk
  have hle : c.entry j / 2 ^ k * 2 ^ k ≤ c.entry j := Nat.div_mul_le_self _ _
  have hlt : c.entry j < c.entry j / 2 ^ k * 2 ^ k + 2 ^ k := Nat.lt_div_mul_add (Nat.two_pow_pos k)
  have hpos : 0 < c.entry j / 2 ^ k := Nat.div_pos (by omega) (Nat.two_pow_pos k)
  have hoct : octave c (c.entry j / 2 ^ k) = k := by
    refine octave_eq hpos (hle.trans (entry_antitone hc (Nat.zero_le j) hj)) ?_
    rw [pow_succ, ← mul_assoc]
    omega
  refine ⟨hpos, hoct, ?_⟩
  rw [halfstep, hoct, tableScan_eq_iff]
  refine ⟨hj, fun _ => hle, fun j' hj' hj'15 => ?_⟩
  have hnext : c.entry j' ≤ c.entry (j + 1) := entry_antitone hc hj' hj'15
  have := hgap j (by omega)
  omega

theorem volInverse_volForward {c : Cfg} (hc : c.wellFormed = true) (hx : c.exactTable = true) {i : Nat} (hi : i ≤ 199) :
    volInverse c (volForward c i) = i := by
  rcases hi.lt_or_eq with hlt | rfl
  · obtain ⟨hpos, hoct, hhalf⟩ := octave_halfstep_of_shifted hc hx (j := i % 16) (k := i / 16) (by omega) (by omega)
    rw [volForward_of_lt c hlt, volInverse_of_pos c hpos, hoct, hhalf]
    omega
  · simp

/-- Settles O14: the forward mapping is a shifted entry, which keeps its octave and its halfstep. -/
theorem volumeRoundTripIsExact : Obligations.VolumeRoundTripIsExact := by
  refine ⟨fun _ hc hx _ => volInverse_volForward hc hx, fun c hc => ?_⟩
  rw [cfg_wellFormed_iff, cfg_exactTable_iff, entry_congr (d := Config.nominal) hc]
  decide

/-! Monotonicity. -/

/-- A configuration with P0 and P2 whose entry 15 is below half of entry 0. -/
def steepCfg : Cfg := { Config.nominal with volRef := Config.volRefEx.set 15 1#31 }

/-- Settles O15: P3 gives the bound on entry 15 and, by the round trip, injectivity; `steepCfg` lacks that bound. -/
theorem volumeMappingsAreMonotone : Obligations.VolumeMappingsAreMonotone := by
  refine ⟨fun c hc => ⟨fun _ _ hmn _ => volInverse_antitone c hmn, fun _ _ => volForward_le_of_same_octave hc,
    volForward_antitone_iff hc, fun hx => ?_, fun i _ => volForward_bit31 c i⟩, steepCfg, by decide, by decide⟩
  obtain ⟨hP0, -⟩ := (cfg_wellFormed_iff c).1 hc
  have h15 := le_entry_of_exactTable hc hx (le_refl 15)
  refine ⟨fun i j => volForward_antitone hc (by omega), fun i j hi hj heq => ?_⟩
  rw [← volInverse_volForward hc hx hi, heq, volInverse_volForward hc hx hj]

end Sys2Proof.Machine
end

section
/-! Proofs on the family 40_volume: the commands VOL.FWD and VOL.INV (spec 40_volume.md rules R125, R126,
60_exceptions.md rule R241). -/

namespace Sys2Proof.Machine

/-! The end of a command that issues no transaction. -/

/-- How `endCommand` ends a command (R241). -/
theorem endCommand_endedWith (e : Report) (addr : Byte) (s : State) :
    EndedWith e addr (e.isTransport && s.wroteAny) s (endCommand e addr s) :=
  ⟨rfl, rfl, rfl, rfl, rfl, rfl, rfl⟩

/-- What the end of a command that wrote at most `RES0` leaves alone. -/
theorem endCommand_setRes0_frame (e : Report) (addr : Byte) (v : Word) {s t : State}
    (ht : t = endCommand e addr (s.setRes0 v)) :
    t.ds = s.ds ∧ NoTransaction s t ∧ SameInputs s t ∧ SameResultsButRes0 s t ∧ t.status.overrun = s.status.overrun ∧
      t.status.degraded = s.status.degraded := by
  subst ht
  exact ⟨rfl, ⟨rfl, rfl, rfl, rfl⟩, endCommand_sameInputs e addr (s.setRes0 v), ⟨rfl, rfl, rfl, rfl⟩, rfl, rfl⟩

/-! The two commands. -/

theorem exec_volFwd_of_le {s : State} (h : s.opArg0.toNat ≤ 199) :
    exec .volFwd s = .next (endCommand .ok 0#8 (s.setRes0 (BitVec.ofNat 32 (volForward s.cfg s.opArg0.toNat)))) :=
  congrArg _ (if_pos h)

/-- An index out of range ends the command with `RES0` as it was. -/
theorem exec_volFwd_of_lt {s : State} (h : 199 < s.opArg0.toNat) :
    exec .volFwd s = .next (endCommand .outOfRange 0#8 (s.setRes0 s.res0)) :=
  congrArg _ (if_neg (Nat.not_le_of_lt h))

theorem exec_volInv (s : State) :
    exec .volInv s =
      .next (endCommand .ok 0#8 (s.setRes0 (BitVec.ofNat 32 (volInverse s.cfg (s.opArg0.toNat % 2 ^ 31))))) := by
  have hm : (magnitudeOperand s.opArg0).toNat = s.opArg0.toNat % 2 ^ 31 := by
    simp [magnitudeOperand]
  rw [← hm]
  rfl

/-- Settles O16: in and out of range the command ends at once, and the magnitude fits 31 bits. -/
theorem volFwdGivesTheMagnitude : Obligations.VolFwdGivesTheMagnitude := by
  intro s
  rcases le_or_gt s.opArg0.toNat 199 with h | h
  · obtain ⟨hds, hport, hin, hres, hover, hdegr⟩ := endCommand_setRes0_frame .ok 0#8 _ rfl
    have hmag : (BitVec.ofNat 32 (volForward s.cfg s.opArg0.toNat)).toNat = volForward s.cfg s.opArg0.toNat :=
      Nat.mod_eq_of_lt ((volForward_lt s.cfg _).trans (by decide))
    exact ⟨_, exec_volFwd_of_le h, hds, hport, hin, hres, hover, hdegr,
      fun _ => ⟨endCommand_endedWith .ok 0#8 (s.setRes0 _), hmag, volForward_bit31 s.cfg _⟩,
      fun hgt => absurd h hgt.not_ge⟩
  · obtain ⟨hds, hport, hin, hres, hover, hdegr⟩ := endCommand_setRes0_frame .outOfRange 0#8 _ rfl
    exact ⟨_, exec_volFwd_of_lt h, hds, hport, hin, hres, hover, hdegr, fun hle => absurd h hle.not_gt,
      fun _ => ⟨endCommand_endedWith .outOfRange 0#8 s, rfl⟩⟩

/-- Settles O17: the command ends at once with an index, which fits the result register. -/
theorem volInvGivesTheIndex : Obligations.VolInvGivesTheIndex := by
  intro s
  obtain ⟨hds, hport, hin, hres, hover, hdegr⟩ := endCommand_setRes0_frame .ok 0#8 _ rfl
  have hle := volInverse_le s.cfg (s.opArg0.toNat % 2 ^ 31)
  have hindex : (BitVec.ofNat 32 (volInverse s.cfg (s.opArg0.toNat % 2 ^ 31))).toNat =
      volInverse s.cfg (s.opArg0.toNat % 2 ^ 31) := Nat.mod_eq_of_lt (hle.trans_lt (by decide))
  exact ⟨_, exec_volInv s, hds, hport, hin, hres, hover, hdegr, endCommand_endedWith .ok 0#8 (s.setRes0 _), hindex,
    hindex.trans_le hle⟩

end Sys2Proof.Machine
end

section
/-! Proofs on the family 41_control_registry: plans in sequence, reads in sequence and writes in sequence, when the port
serves them and when one fails (spec 20_memory.md rules R64 to R66, 60_exceptions.md rule R248). -/

namespace Sys2Proof.Machine

/-! Plans in sequence. -/

theorem planBind_assoc {α β γ : Type} (p : Plan α) (f : α → Plan β) (g : β → Plan γ) :
    planBind (planBind p f) g = planBind p fun a => planBind (f a) g := by
  funext s
  unfold planBind
  cases p s <;> rfl

theorem planPure_bind {α β : Type} (a : α) (f : α → Plan β) : planBind (planPure a) f = f a := rfl

theorem planBind_planPure (p : Plan Unit) : (planBind p fun _ => planPure ()) = p := by
  funext s
  unfold planBind
  cases p s <;> rfl

theorem planBind_of_done {α β : Type} {p : Plan α} {f : α → Plan β} {a : α} {s t : State} (h : p s = .done a t) :
    planBind p f s = f a t := by
  rw [planBind, h]

theorem planBind_of_raised {α β : Type} {p : Plan α} {f : α → Plan β} {e : Report} {addr : Byte} {s t : State}
    (h : p s = .raised e addr t) : planBind p f s = .raised e addr t := by
  rw [planBind, h]

/-! What is left of the port's answers. -/

section
variable {regs : List Byte} {n m : Nat} {new : List PortEvent} {s t : State}

theorem Effect.portServes (h : Effect regs n new s t) (hs : s.portServes (m + new.length)) : t.portServes m :=
  fun k hk => (h.outcomes k).trans (hs _ (Nat.add_lt_add_right hk _))

theorem Effect.portMemoryLike (h : Effect regs n new s t) (hs : s.portMemoryLike (m + new.length)) :
    t.portMemoryLike m := fun k hk => by
  rw [h.outcomes, h.answers]
  exact hs _ (Nat.add_lt_add_right hk _)

end

theorem State.portServes.mono {s : State} {n m : Nat} (h : s.portServes n) (hm : m ≤ n) : s.portServes m :=
  fun k hk => h k (hk.trans_le hm)

theorem State.portMemoryLike.serves {s : State} {n : Nat} (h : s.portMemoryLike n) : s.portServes n :=
  fun k hk => (h k hk).1

/-! Reads in sequence. -/

/-- What reads alone do: the effect of their transactions `new`, with the register file as it was. -/
structure ReadEffect (new : List PortEvent) (s t : State) : Prop extends Effect [] new.length new s t where
  periph : t.periph = s.periph

theorem ReadEffect.refl (s : State) : ReadEffect [] s s := ⟨.refl [] s, rfl⟩

theorem ReadEffect.readOk (a b : Byte) (s : State) : ReadEffect [.readOk a b] s (s.afterRead a b) :=
  ⟨.readOk a b s, State.afterRead_periph a b s⟩

/-- The state after a read that failed. -/
def State.afterFailedRead (a : Byte) (s : State) : State := (busyPoint s.useAnswer).issued (.readFailed a)

theorem ReadEffect.readFailed (a : Byte) (s : State) : ReadEffect [.readFailed a] s (s.afterFailedRead a) :=
  ⟨.read _ rfl (fun _ => rfl) (fun _ _ => rfl) s, by simp [State.afterFailedRead]⟩

theorem ReadEffect.trans {l k : List PortEvent} {s t u : State} (h : ReadEffect l s t) (g : ReadEffect k t u) :
    ReadEffect (l ++ k) s u :=
  ⟨(h.toEffect.trans g.toEffect).mono (fun _ => id) (List.length_append.ge), g.periph.trans h.periph⟩

@[simp] theorem State.afterRead_byteRead (a b r : Byte) (s : State) (k : Nat) :
    (s.afterRead a b).byteRead k r = s.byteRead (k + 1) r := by
  simp [State.byteRead]

/-- Reads of the listed registers, in order. -/
def readAll : List Byte → Plan (List Byte)
  | [] => planPure []
  | a :: as => planBind (memRead a) fun b => planBind (readAll as) fun bs => planPure (b :: bs)

/-- The bytes that reads of the listed registers return when the port serves them. -/
def State.bytesRead (s : State) (regs : List Byte) : List Byte := regs.mapIdx s.byteRead

/-- The transactions of those reads. -/
def State.readEvents (s : State) (regs : List Byte) : List PortEvent :=
  regs.mapIdx fun k a => .readOk a (s.byteRead k a)

theorem State.bytesRead_cons (s : State) (a b : Byte) (as : List Byte) :
    s.bytesRead (a :: as) = s.byteRead 0 a :: (s.afterRead a b).bytesRead as := by
  have hnext : (s.afterRead a b).byteRead = fun k r => s.byteRead (k + 1) r := by
    funext k r
    exact State.afterRead_byteRead a b r s k
  rw [bytesRead, bytesRead, List.mapIdx_cons, hnext]

theorem readAll_ok {regs : List Byte} {s : State} (hs : s.portServes regs.length) :
    ∃ t, readAll regs s = .done (s.bytesRead regs) t ∧ ReadEffect (s.readEvents regs) s t := by
  induction regs generalizing s with
  | nil => exact ⟨s, rfl, .refl s⟩
  | cons a as ih =>
    have hread := ReadEffect.readOk a (s.byteRead 0 a) s
    obtain ⟨t, ht, h⟩ := ih (hread.toEffect.portServes hs)
    refine ⟨t, ?_, ?_⟩
    · rw [readAll, planBind_of_done (memRead_ok (hs 0 (by simp))), planBind_of_done ht, ← State.bytesRead_cons]
      rfl
    · simpa [State.readEvents, List.mapIdx_cons] using hread.trans h

/-- The first read that fails ends the sequence (R15, R248). -/
theorem readAll_failed {regs : List Byte} {k : Nat} {a : Byte} {s : State} (ha : regs[k]? = some a)
    (hs : s.portServes k) (hf : s.outcomeAt k = some .failed) :
    ∃ t pre, readAll regs s = .raised .transportRead a t ∧ ReadEffect (pre ++ [.readFailed a]) s t ∧ pre.length = k := by
  induction regs generalizing s k with
  | nil => simp at ha
  | cons b bs ih =>
    cases k with
    | zero =>
      obtain rfl : b = a := by simpa using ha
      exact ⟨_, [], planBind_of_raised (memRead_failed hf), .readFailed b s, rfl⟩
    | succ k =>
      have hread := ReadEffect.readOk b (s.byteRead 0 b) s
      obtain ⟨t, pre, ht, h, hlen⟩ := ih (by simpa using ha) (hread.toEffect.portServes hs) (by simpa using hf)
      refine ⟨t, .readOk b (s.byteRead 0 b) :: pre, ?_, hread.trans h, by simp [hlen]⟩
      rw [readAll, planBind_of_done (memRead_ok (hs 0 (by simp))), planBind_of_raised ht]

/-- A memory-like port returns what the registers hold (U6). -/
theorem State.portMemoryLike.bytesRead {s : State} {regs : List Byte} (h : s.portMemoryLike regs.length) :
    s.bytesRead regs = regs.map s.periph.read := by
  refine List.ext_getElem (by simp [State.bytesRead]) fun k hk _ => ?_
  simp [State.bytesRead, State.byteRead, readByte, (h k (by simpa [State.bytesRead] using hk)).2]

/-! Writes in sequence. -/

/-- Writes of the listed bytes to the listed registers, in order. -/
def writeAll : List (Byte × Byte) → Plan Unit
  | [] => planPure ()
  | (a, v) :: l => planBind (memWrite a v) fun _ => writeAll l

/-- The transactions of writes that succeed. -/
def writeEvents (l : List (Byte × Byte)) : List PortEvent := l.map fun p => .writeOk p.1 p.2

theorem writeEvents_length (l : List (Byte × Byte)) : (writeEvents l).length = l.length := List.length_map _

theorem writeEvents_any (l : List (Byte × Byte)) :
    (writeEvents l).any PortEvent.isWriteOk = decide (0 < l.length) := by
  cases l <;> simp [writeEvents, PortEvent.isWriteOk]

theorem Effect.writeFailed (a v x : Byte) (s : State) :
    Effect [a] 1 [.writeFailed a v] s (((busyPoint s.useAnswer).setPeriph a x).issued (.writeFailed a v)) := by
  refine .write a x _ rfl (by simp [PortEvent.writesTo, eq_comm]) (fun b k w hw => ?_) rfl (by simp [PortEvent.writesTo])
    (fun b hb k => by simp [PortEvent.settles, hb]) s
  simp only [PortEvent.settles] at hw
  split at hw
  · cases hw
  · exact ⟨‹_›, hw⟩

theorem State.afterWrite_read_same (a v : Byte) (s : State) : (s.afterWrite a v).periph.read a = v := by
  rw [State.afterWrite_periph, Peripheral.read_write_same]

/-- A register that is written once holds the byte written, whatever the writes to other registers after it do. -/
theorem Effect.read_of_afterWrite {regs : List Byte} {n : Nat} {new : List PortEvent} {a v : Byte} {s t : State}
    (h : Effect regs n new (s.afterWrite a v) t) (ha : a ∉ regs) : t.periph.read a = v := by
  rw [h.frame a ha, State.afterWrite_read_same]

theorem writeAll_ok {l : List (Byte × Byte)} {s : State} (hl : (l.map Prod.fst).Nodup) (hs : s.portServes l.length) :
    ∃ t, writeAll l s = .done () t ∧ Effect (l.map Prod.fst) l.length (writeEvents l) s t ∧
      ∀ p ∈ l, t.periph.read p.1 = p.2 := by
  induction l generalizing s with
  | nil => exact ⟨s, rfl, .refl [] s, by simp⟩
  | cons q l ih =>
    obtain ⟨a, v⟩ := q
    obtain ⟨ha, hl⟩ := List.nodup_cons.1 hl
    have hwrite := Effect.writeOk a v s
    obtain ⟨t, ht, h, hread⟩ := ih hl (hwrite.portServes hs)
    refine ⟨t, ?_, ?_, List.forall_mem_cons.2 ⟨h.read_of_afterWrite ha, hread⟩⟩
    · rw [writeAll, planBind_of_done (memWrite_ok (hs 0 (by simp))), ht]
    · exact ((hwrite.mono (by simp) le_rfl).trans (h.mono (by simp +contextual) le_rfl)).mono (fun _ => id)
        (Nat.add_comm _ _).le

/-- The first write that fails ends the sequence; the writes before it stay applied (R147, R248). -/
theorem writeAll_failed {l : List (Byte × Byte)} {k : Nat} {a v : Byte} {s : State} (hl : (l.map Prod.fst).Nodup)
    (ha : l[k]? = some (a, v)) (hs : s.portServes k) (hf : s.outcomeAt k = some .failed) :
    ∃ t, writeAll l s = .raised .transportWrite a t ∧
      Effect ((l.take (k + 1)).map Prod.fst) (k + 1) (writeEvents (l.take k) ++ [.writeFailed a v]) s t ∧
      ∀ p ∈ l.take k, t.periph.read p.1 = p.2 := by
  induction l generalizing s k with
  | nil => simp at ha
  | cons q l ih =>
    obtain ⟨b, w⟩ := q
    cases k with
    | zero =>
      obtain ⟨rfl, rfl⟩ : b = a ∧ w = v := by simpa using ha
      exact ⟨_, planBind_of_raised (memWrite_failed hf), .writeFailed b w _ s, by simp⟩
    | succ k =>
      obtain ⟨hb, hl⟩ := List.nodup_cons.1 hl
      have hwrite := Effect.writeOk b w s
      obtain ⟨t, ht, h, hread⟩ := ih hl (by simpa using ha) (hwrite.portServes hs) (by simpa using hf)
      have hb' : b ∉ (l.take (k + 1)).map Prod.fst := fun hm => hb (List.map_subset _ (List.take_subset _ _) hm)
      refine ⟨t, ?_, ?_, List.forall_mem_cons.2 ⟨h.read_of_afterWrite hb', hread⟩⟩
      · rw [writeAll, planBind_of_done (memWrite_ok (hs 0 (by simp))), ht]
      · exact ((hwrite.mono (by simp) le_rfl).trans (h.mono (by simp +contextual) le_rfl)).mono (fun _ => id)
          (Nat.add_comm _ _).le

end Sys2Proof.Machine
end

section
/-! Proofs on the family 41_control_registry: the bytes of a control, what CTL.RD makes of the bytes it reads and what CTL.WR
writes (spec 41_control_registry.md rules R140 to R146). -/

namespace Sys2Proof.Machine

/-! The rows of the table. -/

section
variable {r : TableRow} (hr : r ∈ controlTable)
include hr

theorem controlOfId_of_mem : controlOfId r.id = some r.control := by
  obtain ⟨-, -, -, hrow, -⟩ := legalValuesAreTheTables
  exact (hrow r hr).1

theorem descriptor_of_mem : descriptor r.control = ⟨r.kind, r.reg, r.mask, r.shift⟩ := by
  obtain ⟨-, -, -, hrow, -⟩ := legalValuesAreTheTables
  exact (hrow r hr).2

end

theorem controlRegisters_of_ne_volume {c : Control} (hv : c ≠ .volume) : controlRegisters c = [(descriptor c).reg] := by
  cases c with
  | volume => exact absurd rfl hv
  | _ => rfl

/-- The controls that are a field of their register, read before it is written (R155). -/
def FieldControl (c : Control) : Prop := c ∉ [Control.volume, .mute, .outputRemap, .spdifChannel]

/-! The bytes of the volume. -/

theorem magnitudeOf_toNat (b3 b2 b1 b0 : Byte) : (magnitudeOf b3 b2 b1 b0).toNat =
    b3.toNat % 128 * 2 ^ 24 + b2.toNat * 2 ^ 16 + b1.toNat * 2 ^ 8 + b0.toNat := by
  have h2 := b2.isLt
  have h1 := b1.isLt
  have h0 := b0.isLt
  simp only [magnitudeOf, BitVec.toNat_append, BitVec.extractLsb'_toNat, Nat.shiftRight_zero]
  rw [← Nat.shiftLeft_add_eq_or_of_lt h2, ← Nat.shiftLeft_add_eq_or_of_lt h1, ← Nat.shiftLeft_add_eq_or_of_lt h0]
  simp only [Nat.shiftLeft_eq]
  omega

/-- The writes of `VolWrite` for a magnitude: its bytes, the most significant first (R145). -/
def volumeBytes (mag : Word) : List (Byte × Byte) :=
  [(23#8, mag.extractLsb' 24 8), (22#8, mag.extractLsb' 16 8), (21#8, mag.extractLsb' 8 8), (20#8, mag.extractLsb' 0 8)]

/-- The registers of `VolWrite` are written once each (R145). -/
theorem volumeBytes_nodup (mag : Word) : ((volumeBytes mag).map Prod.fst).Nodup :=
  show [23#8, 22#8, 21#8, 20#8].Nodup by decide

theorem volumeBytes_getElem? (mag : Word) {k : Nat} (hk : k < 4) :
    ∃ v, (volumeBytes mag)[k]? = some (BitVec.ofNat 8 (23 - k), v) := by
  interval_cases k <;> exact ⟨_, rfl⟩

/-- The bytes of a word hold its bits 30:0. -/
theorem magnitudeOf_bytes (w : Word) :
    (magnitudeOf (w.extractLsb' 24 8) (w.extractLsb' 16 8) (w.extractLsb' 8 8) (w.extractLsb' 0 8)).toNat =
      w.toNat % 2 ^ 31 := by
  have := w.isLt
  simp only [magnitudeOf_toNat, BitVec.extractLsb'_toNat, Nat.shiftRight_eq_div_pow]
  omega

theorem volWrite_eq (i : Nat) (s : State) :
    volWrite i s = writeAll (volumeBytes (BitVec.ofNat 32 (volForward s.cfg i))) s := by
  simp only [volumeBytes, writeAll, planBind_planPure]
  rfl

/-! A field of a register. -/

/-- A field write sets the field (R141). -/
theorem fieldByte_and_mask (mask : Byte) (shift : Nat) (code b : Byte) :
    fieldByte mask shift code b &&& mask = (code <<< shift) &&& mask := by
  ext i
  simp only [fieldByte, BitVec.getElem_and, BitVec.getElem_or, BitVec.getElem_not]
  cases mask[i] <;> simp

/-- A field write keeps the other bits (R141). -/
theorem fieldByte_and_not_mask (mask : Byte) (shift : Nat) (code b : Byte) :
    fieldByte mask shift code b &&& ~~~mask = b &&& ~~~mask := by
  ext i
  simp only [fieldByte, BitVec.getElem_and, BitVec.getElem_or, BitVec.getElem_not]
  cases mask[i] <;> simp

/-- The legal values of a control, listed (R140). -/
def legalValues : Control → List Nat
  | .monoPhase => monoPhaseValues
  | c => List.range (greatestLegal c + 1)

theorem mem_legalValues {c : Control} {v : Word} (h : legalValue c v = true) : v.toNat ∈ legalValues c := by
  cases c with
  | monoPhase => exact (monoPhase_legal_iff v).1 (of_decide_eq_true h)
  | _ => exact List.mem_range.2 (Nat.lt_succ_of_le (of_decide_eq_true h))

/-- The code of a legal value fits the control's field (R140). -/
theorem writeCode_fits {c : Control} {v : Word} (hc : FieldControl c) (h : legalValue c v = true) :
    ((((writeCode c v) <<< (descriptor c).shift) &&& (descriptor c).mask) >>> (descriptor c).shift).toNat = v.toNat := by
  have fits : ∀ n ∈ legalValues c, ((((writeCode c (BitVec.ofNat 32 n)) <<< (descriptor c).shift) &&&
      (descriptor c).mask) >>> (descriptor c).shift).toNat = n := by
    cases c with
    | volume | mute | outputRemap | spdifChannel => simp [FieldControl] at hc
    | _ => decide
  simpa using fits v.toNat (mem_legalValues h)

/-- A field written with a legal value holds it (R141, R142). -/
theorem field_of_fieldByte {c : Control} {v : Word} (hc : FieldControl c) (h : legalValue c v = true) (b : Byte) :
    ((fieldByte (descriptor c).mask (descriptor c).shift (writeCode c v) b &&& (descriptor c).mask) >>>
      (descriptor c).shift).toNat = v.toNat := by
  rw [fieldByte_and_mask, writeCode_fits hc h]

/-! What CTL.RD reads. -/

/-- The value CTL.RD makes of the bytes it read from a control's registers (R142, R144, R146). -/
def readValue (c : Control) (cfg : Cfg) (bs : List Byte) : Word :=
  let b (i : Nat) := bs.getD i 0#8
  match c with
  | .volume => BitVec.ofNat 32 (volInverse cfg (magnitudeOf (b 0) (b 1) (b 2) (b 3)).toNat)
  | .outputRemap => BitVec.setWidth 32 ((b 0).extractLsb' 0 2)
  | .spdifChannel => BitVec.ofNat 32 (lowestSetBit (b 0))
  | _ => BitVec.setWidth 32 ((b 0 &&& (descriptor c).mask) >>> (descriptor c).shift)

/-- CTL.RD of every control but MUTE reads the control's registers in order (R148, R149). -/
theorem readControl_eq {c : Control} (hm : c ≠ .mute) :
    readControl c = planBind (readAll (controlRegisters c)) fun bs t => .done (readValue c t.cfg bs) t := by
  cases c with
  | mute => exact absurd rfl hm
  | _ =>
    simp only [readControl, volRead, fieldRead, controlRegisters, readAll, planBind_assoc, planPure_bind]
    rfl

/-- The value of a field control, as a number. -/
theorem readValue_field {c : Control} (hc : FieldControl c) (cfg : Cfg) (b : Byte) :
    (readValue c cfg [b]).toNat = ((b &&& (descriptor c).mask) >>> (descriptor c).shift).toNat := by
  have hwide (x : Byte) : (BitVec.setWidth 32 x).toNat = x.toNat := BitVec.toNat_setWidth_of_le (by decide)
  cases c with
  | volume | mute | outputRemap | spdifChannel => simp [FieldControl] at hc
  | _ => exact hwide _

theorem readValue_outputRemap (cfg : Cfg) (b : Byte) : (readValue .outputRemap cfg [b]).toNat = b.toNat % 4 := by
  simp [readValue]
  omega

theorem lowestSetBit_lt (b : Byte) : lowestSetBit b < 8 := by
  revert b
  decide

/-- The lowest bit of a byte that is set, if any is (R144). -/
theorem lowestSetBit_spec {b : Byte} (hb : b ≠ 0#8) :
    b.getLsbD (lowestSetBit b) = true ∧ ∀ j, j < lowestSetBit b → b.getLsbD j = false := by
  revert b
  decide

theorem readValue_spdifChannel (cfg : Cfg) (b : Byte) : (readValue .spdifChannel cfg [b]).toNat = lowestSetBit b :=
  Nat.mod_eq_of_lt ((lowestSetBit_lt b).trans (by decide))

theorem readValue_volume_eq (cfg : Cfg) (b3 b2 b1 b0 : Byte) :
    readValue .volume cfg [b3, b2, b1, b0] = BitVec.ofNat 32 (volInverse cfg (magnitudeOf b3 b2 b1 b0).toNat) := rfl

theorem readValue_volume (cfg : Cfg) (b3 b2 b1 b0 : Byte) : (readValue .volume cfg [b3, b2, b1, b0]).toNat =
    volInverse cfg (b3.toNat % 128 * 2 ^ 24 + b2.toNat * 2 ^ 16 + b1.toNat * 2 ^ 8 + b0.toNat) := by
  rw [readValue_volume_eq, ← magnitudeOf_toNat]
  exact Nat.mod_eq_of_lt ((volInverse_le cfg _).trans_lt (by decide))

/-! What CTL.WR writes. -/

/-- CTL.WR of a field control reads its register and writes it with the field set (R155). -/
theorem writeControl_field {c : Control} (hc : FieldControl c) (v : Word) :
    writeControl c v = planBind (memRead (descriptor c).reg) fun b =>
      memWrite (descriptor c).reg (fieldByte (descriptor c).mask (descriptor c).shift (writeCode c v) b) := by
  cases c with
  | volume | mute | outputRemap | spdifChannel => simp [FieldControl] at hc
  | _ => rfl

theorem writeCode_outputRemap {v : Word} (hv : v.toNat ≤ 3) : (writeCode .outputRemap v).toNat = 0x55 * v.toNat :=
  Nat.mod_eq_of_lt (by omega)

theorem writeCode_spdifChannel {v : Word} (hv : v.toNat ≤ 7) : (writeCode .spdifChannel v).toNat = 2 ^ v.toNat := by
  have hlt : 2 ^ v.toNat < 2 ^ 8 := Nat.pow_lt_pow_right Nat.one_lt_two (Nat.lt_succ_of_le hv)
  rw [writeCode, Nat.one_shiftLeft, BitVec.toNat_ofNat, Nat.mod_eq_of_lt hlt]

end Sys2Proof.Machine
end

section
/-! Proofs on the family 41_control_registry: the commands CTL.RD and CTL.WR (spec 41_control_registry.md rules R143 to
R158, 60_exceptions.md rule R241). -/

namespace Sys2Proof.Machine

/-- How a command that kept LAST_OP so far ends (R241). -/
theorem endCommand_endedWith_of_lastOp {e : Report} {addr : Byte} {part : Bool} {s t : State}
    (hl : t.status.lastOp = s.status.lastOp) (hp : (e.isTransport && t.wroteAny) = part) :
    EndedWith e addr part s (endCommand e addr t) :=
  ⟨rfl, rfl, rfl, rfl, hp, hl, rfl⟩

/-! CTL.RD. -/

section
variable {ctl : BitVec 8} {c : Control} (hc : controlOfId ctl = some c)
include hc

theorem exec_ctlRd (s : State) : exec (.ctlRd ctl) s = .next (finishRead (readControl c s)) := by
  simp only [exec, execCtlRd, hc]

/-- CTL.RD when the port serves its reads (R148, R149). -/
theorem exec_ctlRd_served (hm : c ≠ .mute) {s : State} (hs : s.portServes (controlRegisters c).length) :
    ∃ t, exec (.ctlRd ctl) s = .next t ∧ EndedOk s t ∧ t.status.degraded = s.status.degraded ∧
      t.log = s.log ++ s.readEvents (controlRegisters c) ∧ t.periph = s.periph ∧ t.ds = s.ds ∧ SameInputs s t ∧
      SameResultsButRes0 s t ∧ t.res0 = readValue c s.cfg (s.bytesRead (controlRegisters c)) := by
  obtain ⟨u, hu, h⟩ := readAll_ok hs
  refine ⟨endCommand .ok 0#8 (u.setRes0 (readValue c u.cfg (s.bytesRead (controlRegisters c)))), ?_,
    endCommand_endedWith_of_lastOp h.status_lastOp rfl, h.status_degraded, h.log, h.periph, h.ds, h.sameInputs,
    h.sameResults.butRes0, ?_⟩
  · rw [exec_ctlRd hc, readControl_eq hm, planBind_of_done hu]
    rfl
  · rw [← h.cfg]
    rfl

/-- CTL.RD when one of its reads fails (R150). -/
theorem exec_ctlRd_failed (hm : c ≠ .mute) {s : State} {k : Nat} {a : Byte} (ha : (controlRegisters c)[k]? = some a)
    (hs : s.portServes k) (hf : s.outcomeAt k = some .failed) :
    ∃ t, exec (.ctlRd ctl) s = .next t ∧ EndedWith .ok a false s t ∧ t.status.degraded = true ∧ t.res0 = 0#32 ∧
      SameResultsButRes0 s t ∧ (∃ pre, t.log = s.log ++ pre ++ [.readFailed a] ∧ pre.length = k) ∧ t.ds = s.ds ∧
      t.periph = s.periph := by
  obtain ⟨u, pre, hu, h, hlen⟩ := readAll_failed ha hs hf
  refine ⟨endCommand .ok a (u.setDegraded.setRes0 0#32), ?_, endCommand_endedWith_of_lastOp h.status_lastOp rfl, rfl, rfl,
    h.sameResults.butRes0, ⟨pre, ?_, hlen⟩, h.ds, h.periph⟩
  · rw [exec_ctlRd hc, readControl_eq hm, planBind_of_raised hu]
    rfl
  · rw [List.append_assoc]
    exact h.log

end

/-- Settles O19: the one read of the row's register, and the value each kind of row makes of its byte. -/
theorem ctlRdReadsOneRegister : Obligations.CtlRdReadsOneRegister := by
  intro s r hr hv hm hs b
  have hregs : controlRegisters r.control = [r.reg] := by
    rw [controlRegisters_of_ne_volume hv, descriptor_of_mem hr]
  obtain ⟨t, hexec, hend, hdegr, hlog, hperiph, hds, hin, hres, hres0⟩ :=
    exec_ctlRd_served (controlOfId_of_mem hr) hm (s := s) (by rwa [hregs])
  rw [hregs] at hlog hres0
  change t.res0 = readValue r.control s.cfg [b] at hres0
  refine ⟨t, hexec, hend, hdegr, hlog, hperiph, hds, hin, hres, fun ho => ?_, fun hspdif => ?_, fun ho hspdif => ?_⟩
  · rw [hres0, ho, readValue_outputRemap]
  · rw [hspdif] at hres0
    rw [hres0, readValue_spdifChannel]
    refine ⟨fun hb => ?_, lowestSetBit_spec⟩
    rw [hb]
    rfl
  · have hfield : FieldControl r.control := by simp [FieldControl, hv, hm, ho, hspdif]
    rw [hres0, readValue_field hfield, descriptor_of_mem hr]

/-- Settles O20: the four reads, and the index of the 31-bit number their bytes make. -/
theorem ctlRdVolumeReadsFourRegisters : Obligations.CtlRdVolumeReadsFourRegisters := by
  intro s hs b3 b2 b1 b0
  obtain ⟨t, hexec, hend, hdegr, hlog, hperiph, hds, hin, hres, hres0⟩ :=
    exec_ctlRd_served (ctl := 0x00#8) (c := .volume) rfl (by decide) hs
  exact ⟨t, hexec, hend, hdegr, hlog, hperiph, hds, hin, hres, hres0 ▸ readValue_volume s.cfg b3 b2 b1 b0⟩

/-- Settles O21: MUTE's value is DeviceState's, and the command ends with it at once. -/
theorem ctlRdMuteReadsForceMute : Obligations.CtlRdMuteReadsForceMute := by
  intro s
  obtain ⟨hds, hport, hin, hres, -, -⟩ := endCommand_setRes0_frame .ok 0#8 (bitWord s.ds.forceMute) (s := s) rfl
  exact ⟨_, exec_ctlRd (c := .mute) rfl s, endCommand_endedWith .ok 0#8 (s.setRes0 _), hport, hds, hin, hres, rfl⟩

/-- Settles O22: the failed read is the first of a one-register control and the `k`-th of VOLUME's four. -/
theorem failedReadDegradesToZero : Obligations.FailedReadDegradesToZero := by
  refine ⟨fun s r hr hv hm hf => ?_, fun s k hk hs hf => ?_⟩
  · have hreg : (controlRegisters r.control)[0]? = some r.reg := by
      rw [controlRegisters_of_ne_volume hv, descriptor_of_mem hr]
      rfl
    obtain ⟨t, hexec, hend, hdegr, hres0, hres, ⟨pre, hlog, hlen⟩, hds, hperiph⟩ :=
      exec_ctlRd_failed (controlOfId_of_mem hr) hm hreg (fun _ => nofun) hf
    rw [List.length_eq_zero_iff.1 hlen, List.append_nil] at hlog
    exact ⟨t, hexec, hend, hdegr, hres0, hres, hlog, hds, hperiph⟩
  · have hreg : ∀ k < 4, (controlRegisters .volume)[k]? = some (BitVec.ofNat 8 (23 - k)) := by decide
    exact exec_ctlRd_failed rfl (by decide) (hreg k hk) hs hf

/-! CTL.WR. -/

section
variable {ctl : BitVec 8} {c : Control} (hc : controlOfId ctl = some c) {s : State}
include hc

theorem exec_ctlWr_of_allowed (hv : tableAllows c s.opArg0.toNat) :
    exec (.ctlWr ctl) s = .next (finishPlain (writeControl c s.opArg0 s)) := by
  simp only [exec, execCtlWr, hc, if_pos ((legalValue_iff c s.opArg0).2 hv)]

theorem exec_ctlWr_of_not_allowed (hv : ¬ tableAllows c s.opArg0.toNat) :
    exec (.ctlWr ctl) s = .next (endCommand .outOfRange 0#8 s) := by
  simp only [exec, execCtlWr, hc, if_neg (mt (legalValue_iff c s.opArg0).1 hv)]

/-- CTL.WR whose plan goes through ends without error with what the plan did. -/
theorem exec_ctlWr_done {regs : List Byte} {n : Nat} {new : List PortEvent} {t : State}
    (hv : tableAllows c s.opArg0.toNat) (ht : writeControl c s.opArg0 s = .done () t) (h : Effect regs n new s t) :
    exec (.ctlWr ctl) s = .next (endCommand .ok 0#8 t) ∧ EndedOk s (endCommand .ok 0#8 t) ∧
      (endCommand .ok 0#8 t).ds = s.ds ∧ SameInputs s (endCommand .ok 0#8 t) ∧
      SameResults s (endCommand .ok 0#8 t) := by
  refine ⟨?_, endCommand_endedWith_of_lastOp h.status_lastOp rfl, h.ds, h.sameInputs, h.sameResults⟩
  rw [exec_ctlWr_of_allowed hc hv, ht]
  rfl

theorem exec_ctlWr_raised {e : Report} {addr : Byte} {t : State} (hv : tableAllows c s.opArg0.toNat)
    (ht : writeControl c s.opArg0 s = .raised e addr t) : exec (.ctlWr ctl) s = .next (endCommand e addr t) := by
  rw [exec_ctlWr_of_allowed hc hv, ht]
  rfl

end

/-- CTL.WR of a field control when the port serves its read and its write (R155). -/
theorem writeControl_field_served {c : Control} (hf : FieldControl c) (v : Word) {s : State} (hs : s.portServes 2) :
    let b := s.byteRead 0 (descriptor c).reg
    let x := fieldByte (descriptor c).mask (descriptor c).shift (writeCode c v) b
    ∃ t, writeControl c v s = .done () t ∧ t.periph.read (descriptor c).reg = x ∧
      Effect [(descriptor c).reg] 2 [.readOk (descriptor c).reg b, .writeOk (descriptor c).reg x] s t := by
  intro b x
  have hread := (ReadEffect.readOk (descriptor c).reg b s).toEffect
  have hw : (s.afterRead (descriptor c).reg b).outcomeAt 0 = some .ok := hread.portServes hs 0 (by decide)
  refine ⟨(s.afterRead (descriptor c).reg b).afterWrite (descriptor c).reg x, ?_, State.afterWrite_read_same _ x _,
    (hread.mono (by simp) le_rfl).trans (.writeOk _ x _)⟩
  rw [writeControl_field hf, planBind_of_done (memRead_ok (hs 0 (by decide))), memWrite_ok hw]

/-- Settles O24: the read and the write of the field, and the failed read that leaves nothing to write. -/
theorem ctlWrFieldKeepsTheOtherBits : Obligations.CtlWrFieldKeepsTheOtherBits := by
  intro s r hr (hf : FieldControl r.control) hv b
  have hc := controlOfId_of_mem hr
  have hd := descriptor_of_mem hr
  refine ⟨fun hs => ?_, fun hfail => ?_⟩
  · obtain ⟨t, ht, hread, h⟩ := writeControl_field_served hf s.opArg0 hs
    obtain ⟨hexec, hend, hds, hin, hres⟩ := exec_ctlWr_done hc hv ht h
    have hfield := field_of_fieldByte hf ((legalValue_iff _ _).2 hv) b
    rw [hd] at h hread hfield
    exact ⟨_, _, hexec, hend, h.log, hfield, fieldByte_and_not_mask r.mask r.shift _ b, hread, h.frame, hds, hin, hres⟩
  · have h := ReadEffect.readFailed r.reg s
    have ht : writeControl r.control s.opArg0 s = .raised .transportRead r.reg (s.afterFailedRead r.reg) := by
      rw [writeControl_field hf, hd]
      exact planBind_of_raised (memRead_failed hfail)
    exact ⟨_, exec_ctlWr_raised hc hv ht, rfl, rfl, rfl, h.log, h.periph, h.ds, h.sameResults⟩

/-- Settles O25: the four writes in order; the `k`-th, failed, follows `k` that succeeded. -/
theorem ctlWrVolumeWritesFourRegisters : Obligations.CtlWrVolumeWritesFourRegisters := by
  intro s hv mag plan
  have hplan : writeControl .volume s.opArg0 s = writeAll plan s := volWrite_eq s.opArg0.toNat s
  have hnodup : (plan.map Prod.fst).Nodup := volumeBytes_nodup mag
  refine ⟨volForward_bit31 s.cfg _, fun hs => ?_, fun hw k hk hs hf => ?_⟩
  · obtain ⟨t, ht, h, hread⟩ := writeAll_ok hnodup hs
    obtain ⟨hexec, hend, hds, hin, hres⟩ :=
      exec_ctlWr_done (ctl := 0x00#8) (c := .volume) rfl hv (hplan.trans ht) h
    exact ⟨_, hexec, hend, h.log, hread, h.frame, hds, hin, hres⟩
  · obtain ⟨v, ha⟩ := volumeBytes_getElem? mag hk
    obtain ⟨t, ht, h, hread⟩ := writeAll_failed hnodup ha hs hf
    have hlen : (plan.take k).length = k := List.length_take_of_le (Nat.le_of_lt hk)
    have hpart : t.wroteAny = decide (0 < k) := by
      rw [h.wroteAny, hw, List.any_append, writeEvents_any, hlen]
      simp [PortEvent.isWriteOk]
    have hlog : t.log.length = s.log.length + k + 1 := by
      rw [h.log, List.length_append, List.length_append, writeEvents_length, hlen, List.length_singleton, Nat.add_assoc]
    exact ⟨_, exec_ctlWr_raised (c := .volume) rfl hv (hplan.trans ht),
      endCommand_endedWith_of_lastOp h.status_lastOp hpart, hread, h.frame, hlog, h.ds, h.sameResults⟩

/-- Settles O26: each of the two controls is one write of its code. -/
theorem ctlWrWholeRegisterWritesOnce : Obligations.CtlWrWholeRegisterWritesOnce := by
  intro s hs
  refine ⟨fun hv => ?_, fun hv => ?_⟩
  · have h := Effect.writeOk 15#8 (writeCode .outputRemap s.opArg0) s
    obtain ⟨hexec, hend, hds, hin, hres⟩ :=
      exec_ctlWr_done (ctl := 0x0E#8) (c := .outputRemap) rfl hv (memWrite_ok (hs 0 (by decide))) h
    exact ⟨_, _, hexec, writeCode_outputRemap hv, hend, h.log, State.afterWrite_read_same _ _ s, h.frame, hds, hin, hres⟩
  · have h := Effect.writeOk 18#8 (writeCode .spdifChannel s.opArg0) s
    obtain ⟨hexec, hend, hds, hin, hres⟩ :=
      exec_ctlWr_done (ctl := 0x13#8) (c := .spdifChannel) rfl hv (memWrite_ok (hs 0 (by decide))) h
    exact ⟨_, _, hexec, writeCode_spdifChannel hv, hend, h.log, State.afterWrite_read_same _ _ s, h.frame, hds, hin, hres⟩

/-- Settles O27: both values are legal, and each selects its plan. -/
theorem ctlWrMuteRunsTheMutePlans : Obligations.CtlWrMuteRunsTheMutePlans := by
  refine fun s => ⟨fun h => ?_, fun h => ?_⟩
  · rw [exec_ctlWr_of_allowed (c := .mute) rfl (h ▸ .inr rfl), h]
    rfl
  · rw [exec_ctlWr_of_allowed (c := .mute) rfl (h ▸ .inl rfl), h]
    rfl

/-- A plan that ends a command ends it without error or with TRANSPORT (R242). -/
theorem PlanSpec.report_ne_outOfRange {regs : List Byte} {n : Nat} {s : State} {r : PlanResult Unit}
    (h : PlanSpec regs n s r) (hb : s.fsm = .busy) (hi : (finishPlain r).fsm = .idle) :
    (finishPlain r).status.report ≠ .outOfRange := by
  have busy {new : List PortEvent} {t : State} (g : Effect regs n new s t) : t.fsm ≠ .idle := by
    rw [g.fsm, hb]
    nofun
  cases h with
  | done | readFailed | writeFailed => nofun
  | hung t pre e g => exact absurd hi (busy g)
  | left t new g => exact absurd (show t.fsm = .idle from hi) (busy g)

/-- Settles O28: the range check comes first, and past it only the plan can end the command. -/
theorem ctlWrRefusesIllegalValues : Obligations.CtlWrRefusesIllegalValues := by
  refine ⟨fun s ctl c hc => ⟨fun hv => ?_, fun hv hb t ht hi => ?_⟩, fun c => ?_⟩
  · exact ⟨_, exec_ctlWr_of_not_allowed hc hv, endCommand_endedWith .outOfRange 0#8 s,
      ⟨⟨rfl, rfl, rfl, rfl, rfl⟩, rfl, rfl, rfl, rfl, rfl⟩, endCommand_sameInputs .outOfRange 0#8 s⟩
  · rw [exec_ctlWr_of_allowed hc hv] at ht
    cases ht
    exact (writeControl_spec c s.opArg0 s).report_ne_outOfRange hb hi
  · cases c <;> simp [tableAllows]

/-! A control written and read back. -/

/-- The index whose magnitude `VolWrite` wrote is the one its bytes give (R127). -/
theorem readValue_volumeBytes {cfg : Cfg} (hw : cfg.wellFormed = true) (hx : cfg.exactTable = true) {v : Word}
    (hv : v.toNat ≤ 199) :
    readValue .volume cfg ((volumeBytes (BitVec.ofNat 32 (volForward cfg v.toNat))).map Prod.snd) = v := by
  have hmag := volForward_lt cfg v.toNat
  have hbits : (BitVec.ofNat 32 (volForward cfg v.toNat)).toNat % 2 ^ 31 = volForward cfg v.toNat := by
    rw [BitVec.toNat_ofNat]
    omega
  refine (readValue_volume_eq cfg _ _ _ _).trans ?_
  rw [magnitudeOf_bytes, hbits, volInverse_volForward hw hx hv, BitVec.ofNat_toNat, BitVec.setWidth_eq]

theorem readValue_writeCode_outputRemap (cfg : Cfg) {v : Word} (hv : v.toNat ≤ 3) :
    readValue .outputRemap cfg [writeCode .outputRemap v] = v := by
  rw [← BitVec.toNat_inj, readValue_outputRemap, writeCode_outputRemap hv]
  omega

theorem readValue_writeCode_spdifChannel (cfg : Cfg) {v : Word} (hv : v.toNat ≤ 7) :
    readValue .spdifChannel cfg [writeCode .spdifChannel v] = v := by
  have lowest : ∀ n ≤ 7, lowestSetBit (writeCode .spdifChannel (BitVec.ofNat 32 n)) = n := by decide
  rw [← BitVec.toNat_inj, readValue_spdifChannel]
  simpa using lowest v.toNat hv

theorem readValue_fieldByte {c : Control} (hf : FieldControl c) (cfg : Cfg) {v : Word} (hv : legalValue c v = true)
    (b : Byte) :
    readValue c cfg [fieldByte (descriptor c).mask (descriptor c).shift (writeCode c v) b] = v := by
  rw [← BitVec.toNat_inj, readValue_field hf, field_of_fieldByte hf hv]

/-- CTL.WR of a legal value leaves registers from which CTL.RD makes that value. -/
theorem writeControl_holds {c : Control} (hm : c ≠ .mute) {v : Word} (hv : legalValue c v = true) {s : State}
    (hx : c = .volume → s.cfg.wellFormed = true ∧ s.cfg.exactTable = true) (hs : s.portServes 4) :
    ∃ t new, writeControl c v s = .done () t ∧ Effect (controlRegisters c) 4 new s t ∧
      readValue c t.cfg ((controlRegisters c).map t.periph.read) = v := by
  by_cases hf : FieldControl c
  · obtain ⟨t, ht, hread, h⟩ := writeControl_field_served hf v (hs.mono (by decide))
    have hregs : controlRegisters c = [(descriptor c).reg] :=
      controlRegisters_of_ne_volume fun hvol => by simp [FieldControl, hvol] at hf
    rw [hregs]
    refine ⟨t, _, ht, h.mono (fun _ => id) (by decide), ?_⟩
    rw [List.map_singleton, hread, readValue_fieldByte hf _ hv]
  · have hle := (legalValue_iff c v).1 hv
    have h0 := hs 0 (by decide)
    obtain rfl | rfl | rfl : c = .volume ∨ c = .outputRemap ∨ c = .spdifChannel := by
      simpa only [FieldControl, not_not, List.mem_cons, hm, false_or, List.not_mem_nil, or_false] using hf
    · obtain ⟨hw, hx⟩ := hx rfl
      obtain ⟨t, ht, h, hread⟩ := writeAll_ok (volumeBytes_nodup (BitVec.ofNat 32 (volForward s.cfg v.toNat))) hs
      have hmap : (controlRegisters .volume).map t.periph.read =
          (volumeBytes (BitVec.ofNat 32 (volForward s.cfg v.toNat))).map Prod.snd := List.map_congr_left hread
      refine ⟨t, _, (volWrite_eq v.toNat s).trans ht, h, ?_⟩
      rw [hmap, h.cfg, readValue_volumeBytes hw hx hle]
    · have h := Effect.writeOk 15#8 (writeCode .outputRemap v) s
      refine ⟨_, _, memWrite_ok h0, h.mono (fun _ => id) (by decide), ?_⟩
      simpa [controlRegisters, descriptor, Peripheral.read_write_same] using readValue_writeCode_outputRemap s.cfg hle
    · have h := Effect.writeOk 18#8 (writeCode .spdifChannel v) s
      refine ⟨_, _, memWrite_ok h0, h.mono (fun _ => id) (by decide), ?_⟩
      simpa [controlRegisters, descriptor, Peripheral.read_write_same] using readValue_writeCode_spdifChannel s.cfg hle

theorem controlRegisters_length_le (c : Control) : (controlRegisters c).length ≤ 4 := by
  cases c <;> decide

/-- Settles O29: CTL.RD reads what the registers hold, which is what CTL.WR left. -/
theorem writtenControlReadsBack : Obligations.WrittenControlReadsBack := by
  intro s ctl c hc hm hv hx hs
  obtain ⟨t, new, ht, h, hheld⟩ := writeControl_holds hm hv hx (hs.serves.mono (by decide))
  obtain ⟨hexec, -⟩ := exec_ctlWr_done hc ((legalValue_iff c _).1 hv) ht h
  have hport : (endCommand .ok 0#8 t).portMemoryLike (controlRegisters c).length := fun k hk => by
    have := controlRegisters_length_le c
    exact h.portMemoryLike (m := 4) (fun k hk => hs k (by have := h.bound; omega)) k (by omega)
  obtain ⟨u, hread, hend, -, -, -, -, -, -, hres0⟩ := exec_ctlRd_served hc hm hport.serves
  refine ⟨_, u, hexec, hread, hend, ?_⟩
  rw [hres0, hport.bytesRead]
  exact hheld

end Sys2Proof.Machine
end

section
/-! Proofs on the family 41_control_registry: the flags of `STATUS` that a command sets (spec 41_control_registry.md rule
R150, 60_exceptions.md rule R241). -/

namespace Sys2Proof.Machine

/-- The results of every command but CTL.RD leave `STATUS` to the end of the command (R241). -/
theorem ResultStep.status {i : Instr} {e : Report} {addr : Byte} {u v : State} (h : ResultStep i e addr u v)
    (hi : ∀ ctl, i ≠ .ctlRd ctl) : v.status = u.status := by
  cases i with
  | ctlRd ctl => exact absurd rfl (hi ctl)
  | volFwd | volInv =>
    rcases h with ⟨-, x, rfl⟩ | ⟨-, rfl⟩ <;> rfl
  | neg =>
    rcases h with ⟨-, p, relock, -, ⟨-, -, rfl⟩ | ⟨-, f, -, -, rfl⟩⟩ | ⟨-, rfl⟩ <;> rfl
  | _ => exact congrArg State.status h

/-- The results of a command clear neither flag: a degraded CTL.RD sets DEGRADED, and nothing else is written to `STATUS`
(R150). -/
theorem ResultStep.flags {i : Instr} {e : Report} {addr : Byte} {u v : State} (h : ResultStep i e addr u v) :
    (u.status.degraded = true → v.status.degraded = true) ∧ v.status.overrun = u.status.overrun := by
  rcases h.writes with rfl | ⟨x, rfl⟩ | ⟨-, rfl⟩ | ⟨-, p, relock, d, -, rfl, -⟩
  · exact ⟨id, rfl⟩
  · exact ⟨id, rfl⟩
  · exact ⟨fun _ => rfl, rfl⟩
  · exact ⟨id, rfl⟩

/-- Settles O51: the transactions of a command leave DEGRADED alone and never clear OVERRUN, and its end writes neither. -/
theorem degradedIsSetByReadsOnly : Obligations.DegradedIsSetByReadsOnly := by
  intro i s t h
  have kept {regs : List Byte} {n : Nat} {new : List PortEvent} {d : DeviceState} {u : State}
      (g : Effect regs n new (s.setDs d) u) : u.status.degraded = s.status.degraded := g.status_degraded
  cases run_of_exec h with
  | hung d pre e u _ g =>
    have hu := kept g
    exact ⟨fun _ => hu, hu.trans, g.overrun⟩
  | left d new u _ g =>
    have hu := kept g
    exact ⟨fun _ => hu, hu.trans, g.overrun⟩
  | ended d new u v e addr _ g hr =>
    obtain ⟨hdegr, hover⟩ := hr.flags
    exact ⟨fun hi => (congrArg Status.degraded (hr.status hi)).trans (kept g), fun hs => hdegr ((kept g).trans hs),
      fun hs => hover.trans (g.overrun hs)⟩

end Sys2Proof.Machine
end

section
/-! Proofs on the family 42_clock_negotiator: the clock plan, check by check (spec 42_clock_negotiator.md rules R181 to
R186, R190). -/

namespace Sys2Proof.Machine

/-! Family selection. -/

section
variable {c : Cfg} {rate : Nat}

theorem selectClock_slave (hm : c.mode = .slave) : selectClock c rate = some (.slaveUndefined, 0, none) := by
  simp only [selectClock, hm]

theorem selectClock_master (hm : c.mode = .master) :
    selectClock c rate = (selectMaster c rate).map fun r => (r.1, r.2.1, some r.2.2) := by
  simp only [selectClock, hm]

theorem selectMaster_zero : selectMaster c 0 = none := if_pos rfl

/-- The enabled references are tried in order, 44.1 first (R182). -/
theorem selectMaster_of_pos (hr : 0 < rate) : selectMaster c rate =
    if c.ref44.toNat ≠ 0 ∧ rate ∣ c.ref44.toNat then some (.external44k1, c.ref44.toNat, .family44k1)
    else if c.ref48.toNat ≠ 0 ∧ rate ∣ c.ref48.toNat then some (.external48k, c.ref48.toNat, .family48k)
    else none := by
  simp only [Nat.dvd_iff_mod_eq_zero]
  exact if_neg hr.ne'

/-- A selected system clock is 0 or a reference, so it fits a register (R182, R183). -/
theorem selectClock_sysclk_lt {src : ClockSource} {n : Nat} {fam : Option Family}
    (h : selectClock c rate = some (src, n, fam)) : n < 2 ^ 32 := by
  cases hm : c.mode with
  | slave =>
    rw [selectClock_slave hm] at h
    cases h
    decide
  | master =>
    rw [selectClock_master hm] at h
    rcases Nat.eq_zero_or_pos rate with rfl | hr
    · cases h
    · rw [selectMaster_of_pos hr] at h
      split_ifs at h <;> cases h
      exacts [c.ref44.isLt, c.ref48.isLt]

end

/-! The format operand and the bit clock. -/

/-- The format operand by its fields as numbers (R95, R181). -/
theorem formatOperand_eq (v : Word) : formatOperand v =
    if 2 ^ 16 ≤ v.toNat then none
    else if v.toNat % 256 = 0 then some (.pcm (BitVec.ofNat 8 (v.toNat / 256)))
    else if v.toNat % 256 = 1 then some (.dsd 8)
    else if v.toNat % 256 = 2 then some (.dsd 16)
    else if v.toNat % 256 = 3 then some (.dsd 32)
    else none := by
  have hlt := v.isLt
  have hres : v.extractLsb' 16 16 ≠ 0#16 ↔ 2 ^ 16 ≤ v.toNat := by
    rw [ne_eq, ← BitVec.toNat_inj, BitVec.extractLsb'_toNat, Nat.shiftRight_eq_div_pow, BitVec.toNat_ofNat]
    omega
  have hclass (k : Nat) (hk : k < 256) : v.extractLsb' 0 8 = BitVec.ofNat 8 k ↔ v.toNat % 256 = k := by
    rw [← BitVec.toNat_inj, BitVec.extractLsb'_toNat, BitVec.toNat_ofNat, Nat.mod_eq_of_lt hk]
    rfl
  have hwidth : v.extractLsb' 8 8 = BitVec.ofNat 8 (v.toNat / 256) := by
    rw [BitVec.extractLsb', Nat.shiftRight_eq_div_pow]
  simp only [formatOperand, hres, hwidth, hclass 0 (by decide), hclass 1 (by decide), hclass 2 (by decide),
    hclass 3 (by decide)]

/-- A symbol of DSD has at most 32 bits (R184). -/
theorem formatOperand_dsd_le {v : Word} {n : Nat} (h : formatOperand v = some (.dsd n)) : n ≤ 32 := by
  rw [formatOperand_eq] at h
  split_ifs at h <;> cases h <;> decide

/-- The bit clock of a legal format is exact in 64 bits (R11, R184). -/
theorem bitClock_lt {format : Word} {f : SampleFormat} (h : formatOperand format = some f) (c : Cfg) (rate : Word) :
    bitClock c rate f < 2 ^ 64 := by
  have hrate := rate.isLt
  cases f with
  | dsd n => exact (Nat.mul_le_mul (formatOperand_dsd_le h) hrate.le).trans_lt (by decide)
  | pcm w =>
    simp only [bitClock]
    split
    · exact (Nat.mul_lt_mul'' c.bclkRatio.isLt hrate).trans_eq (by decide)
    · exact (Config.pcmDefaultBclk w rate).isLt

/-! The divisor. -/

/-- The quotient, rounded to the nearest integer, halves up (R185). -/
theorem clockDivisor_eq (sysclk : Nat) {bclk : Nat} (hb : 0 < bclk) :
    clockDivisor sysclk bclk = sysclk / bclk + if bclk ≤ 2 * (sysclk % bclk) then 1 else 0 := by
  have hr := Nat.mod_lt sysclk hb
  have hround : (sysclk % bclk + bclk / 2) / bclk = if bclk ≤ 2 * (sysclk % bclk) then 1 else 0 := by
    split
    · exact Nat.div_eq_of_lt_le (by omega) (by omega)
    · exact Nat.div_eq_of_lt (by omega)
  rw [← hround, ← Nat.mul_add_div hb, ← Nat.add_assoc, Nat.div_add_mod]
  rfl

theorem clockDivisor_le (sysclk : Nat) {bclk : Nat} (hb : 0 < bclk) : clockDivisor sysclk bclk ≤ sysclk := by
  have hq : sysclk / bclk ≤ bclk * (sysclk / bclk) := Nat.le_mul_of_pos_left _ hb
  have hdm := Nat.div_add_mod sysclk bclk
  rw [clockDivisor_eq sysclk hb]
  split <;> omega

theorem clockDivisor_eq_zero_iff (sysclk : Nat) {bclk : Nat} (hb : 0 < bclk) :
    clockDivisor sysclk bclk = 0 ↔ 2 * sysclk < bclk := by
  rw [clockDivisor, Nat.div_eq_zero_iff_lt hb]
  omega

/-! The checks of a plan, in the order of R190. -/

section
variable {c : Cfg} {rate format : Word}

theorem planClock_of_no_format (hf : formatOperand format = none) : planClock c rate format = .error .badFormat := by
  simp only [planClock, hf]

variable {f : SampleFormat} (hf : formatOperand format = some f)
include hf

theorem planClock_of_no_clock (hs : selectClock c rate.toNat = none) :
    planClock c rate format = .error .unsupportedRate := by
  simp only [planClock, hf, hs]

variable {src : ClockSource} {sysclk : Nat} {fam : Option Family}
  (hs : selectClock c rate.toNat = some (src, sysclk, fam))
include hs

theorem planClock_of_no_bitClock (hb : bitClock c rate f = 0) : planClock c rate format = .error .divideByZero := by
  simp only [planClock, hf, hs, if_pos hb]

/-- The last check, past the three others: a divisor of 0 with a system clock that is not 0 (R186). -/
theorem planClock_of_bitClock (hb : bitClock c rate f ≠ 0) : planClock c rate format =
    if 2 * sysclk < bitClock c rate f ∧ sysclk ≠ 0 then .error .divisorZero
    else .ok ⟨sysclk, src, fam, bitClock c rate f, clockDivisor sysclk (bitClock c rate f)⟩ := by
  simp only [planClock, hf, hs, if_neg hb, clockDivisor_eq_zero_iff sysclk (Nat.pos_of_ne_zero hb)]

end

/-- What a plan that passed every check holds fits the result registers (R189). -/
theorem planClock_ok_lt {c : Cfg} {rate format : Word} {p : ClockPlan} (h : planClock c rate format = .ok p) :
    p.sysclk < 2 ^ 32 ∧ p.bclk < 2 ^ 64 ∧ p.divisor < 2 ^ 32 := by
  have hs := planClock_ok h
  have hlt := selectClock_sysclk_lt hs
  cases hf : formatOperand format with
  | none => rw [planClock_of_no_format hf] at h; cases h
  | some f =>
    by_cases hb : bitClock c rate f = 0
    · rw [planClock_of_no_bitClock hf hs hb] at h; cases h
    · rw [planClock_of_bitClock hf hs hb] at h
      split at h
      · cases h
      · have hplan := Except.ok.inj h
        have hbclk : bitClock c rate f = p.bclk := congrArg ClockPlan.bclk hplan
        have hdiv : clockDivisor p.sysclk (bitClock c rate f) = p.divisor := congrArg ClockPlan.divisor hplan
        rw [← hbclk, ← hdiv]
        exact ⟨hlt, bitClock_lt hf c rate, (clockDivisor_le _ (Nat.pos_of_ne_zero hb)).trans_lt hlt⟩

/-! The statements. -/

/-- Settles O30: the selection in each mode, and the check that follows it. -/
theorem familySelection : Obligations.FamilySelection := by
  refine fun c rate => ⟨selectClock_slave, fun hm => ?_, fun r format hf hs => ?_⟩
  · rw [selectClock_master hm]
    refine ⟨fun hr => ?_, fun hr h0 hd => ?_, fun hr h44 h0 hd => ?_, fun h44 h48 => ?_⟩
    · rw [hr, selectMaster_zero]
      rfl
    · rw [selectMaster_of_pos hr, if_pos ⟨h0, hd⟩]
      rfl
    · rw [selectMaster_of_pos hr, if_neg h44, if_pos ⟨h0, hd⟩]
      rfl
    · rcases Nat.eq_zero_or_pos rate with rfl | hr
      · rfl
      · rw [selectMaster_of_pos hr, if_neg h44, if_neg h48]
        rfl
  · obtain ⟨f, hf⟩ := Option.ne_none_iff_exists'.1 hf
    exact planClock_of_no_clock hf hs

/-- Settles O31: the rounding in closed form, and the check of the bit clock. -/
theorem divisorRoundsHalvesUp : Obligations.DivisorRoundsHalvesUp := by
  refine ⟨fun sysclk bclk hb => ⟨clockDivisor_eq sysclk hb, clockDivisor_le sysclk hb⟩,
    fun c rate format f hf hs hb => ?_⟩
  obtain ⟨⟨src, sysclk, fam⟩, hs⟩ := Option.ne_none_iff_exists'.1 hs
  exact planClock_of_no_bitClock hf hs hb

/-- Settles O32: what the last check refuses and what it lets through; Slave mode's system clock of 0 passes it. -/
theorem zeroDivisorIsRejectedInMasterMode : Obligations.ZeroDivisorIsRejectedInMasterMode := by
  refine ⟨fun sysclk bclk hb => clockDivisor_eq_zero_iff sysclk hb, fun c rate format f src sysclk fam hf hs hb => ?_,
    fun c rate format f hm hf hb => ?_, fun c rate format f src sysclk fam hf hs hb hpass => ?_⟩
  · rw [planClock_of_bitClock hf hs hb]
    split
    · next h => exact iff_of_true rfl h.symm
    · next h => exact iff_of_false nofun (mt And.symm h)
  · have hdiv : clockDivisor 0 (bitClock c rate f) = 0 :=
      (clockDivisor_eq_zero_iff 0 (Nat.pos_of_ne_zero hb)).2 (Nat.pos_of_ne_zero hb)
    rw [planClock_of_bitClock hf (selectClock_slave hm) hb, if_neg (fun h => h.2 rfl), hdiv]
  · rw [planClock_of_bitClock hf hs hb, if_neg (by omega)]

/-- Settles O33: the format by its fields, and the bit clock of each kind of format. -/
theorem bitClockIsExact : Obligations.BitClockIsExact := by
  intro c rate format
  refine ⟨?_, planClock_of_no_format, fun hk hlt => ?_, fun hk hlt => ?_, fun hk hlt => ?_, fun hk hlt => ?_,
    fun n => rfl, fun w hr => ?_, fun w hr => ?_, fun f hf => bitClock_lt hf c rate⟩
  · rw [formatOperand_eq]
    split_ifs <;> simp <;> omega
  · simpa [formatOperand_eq, hk] using hlt
  · simpa [formatOperand_eq, hk] using hlt
  · simpa [formatOperand_eq, hk] using hlt
  · simpa [formatOperand_eq, hk] using hlt
  · exact if_pos fun h0 => hr (BitVec.eq_of_toNat_eq h0)
  · exact if_neg (by simp [hr])

end Sys2Proof.Machine
end

section
/-! Proofs on the family 42_clock_negotiator: a field write that the port serves and one that fails, and the relock pulse,
which is two of them (spec 41_control_registry.md rule R141, 42_clock_negotiator.md rule R188). -/

namespace Sys2Proof.Machine

/-! A field write. -/

section
variable {reg mask : Byte} (hm : mask ≠ 0xFF#8) (shift : Nat) (code : Byte) {s : State}
include hm

theorem fieldWrite_served (hs : s.portServes 2) :
    let b := s.byteRead 0 reg
    let x := fieldByte mask shift code b
    ∃ t, fieldWrite reg mask shift code s = .done () t ∧ t.periph.read reg = x ∧
      Effect [reg] 2 [.readOk reg b, .writeOk reg x] s t :=
  ⟨_, fieldWrite_ok hm hs, State.afterWrite_read_same reg _ _,
    ((Effect.readOk reg _ s).mono (by simp) le_rfl).trans (.writeOk reg _ _)⟩

/-- A field write whose read, or whose write after a read, fails (R141, R248): its failed transaction is its last, and no
write of it succeeded. -/
theorem fieldWrite_failed {k : Nat} (hk : k < 2) (hs : s.portServes k) (hf : s.outcomeAt k = some .failed) :
    ∃ t new, fieldWrite reg mask shift code s =
        .raised (if k % 2 = 0 then .transportRead else .transportWrite) reg t ∧
      Effect [reg] 2 new s t ∧ new.length = k + 1 ∧ new.any PortEvent.isWriteOk = false := by
  rw [fieldWrite, if_neg hm]
  obtain rfl | rfl : k = 0 ∨ k = 1 := by omega
  · have hread := (ReadEffect.readFailed reg s).toEffect
    exact ⟨_, _, planBind_of_raised (memRead_failed hf), hread.mono (by simp) (by simp), rfl, rfl⟩
  · have hread := (ReadEffect.readOk reg (s.byteRead 0 reg) s).toEffect
    have hf' : (s.afterRead reg (s.byteRead 0 reg)).outcomeAt 0 = some .failed := by simpa using hf
    exact ⟨_, _, (planBind_of_done (memRead_ok (hs 0 (by decide)))).trans (memWrite_failed hf'),
      (hread.mono (by simp) le_rfl).trans (.writeFailed reg _ _ _), rfl, rfl⟩

end

/-! The relock pulse. -/

/-- The assert write sets bit 5 and keeps the others (R188). -/
theorem fieldByte_assert (b : Byte) : fieldByte 0x20#8 5 1#8 b = b ||| 0x20#8 := by
  revert b
  decide

/-- The deassert write clears bit 5 and keeps the others (R188). -/
theorem fieldByte_deassert (b : Byte) : fieldByte 0x20#8 5 0#8 b = b &&& 0xDF#8 := by
  revert b
  decide

/-- The pulse when the port serves its four transactions; its second read may return the byte just written (R66, R188). -/
theorem relockWrites_served {s : State} (hs : s.portServes 4) :
    let b := s.byteRead 0 17#8
    let x := b ||| 0x20#8
    let b' := if (s.answerAt 2).held then x else (s.answerAt 2).byte
    let x' := b' &&& 0xDF#8
    ∃ t, relockWrites s = .done () t ∧ t.periph.read 17#8 = x' ∧
      Effect [17#8] 4 [.readOk 17#8 b, .writeOk 17#8 x, .readOk 17#8 b', .writeOk 17#8 x'] s t := by
  intro b x b' x'
  obtain ⟨t, ht, htread, h⟩ := fieldWrite_served (reg := 17#8) (mask := 0x20#8) (by decide) 5 1#8 (hs.mono (by decide))
  obtain ⟨u, hu, huread, g⟩ :=
    fieldWrite_served (reg := 17#8) (mask := 0x20#8) (by decide) 5 0#8 (h.portServes (m := 2) hs)
  rw [fieldByte_assert] at htread h
  have hb' : t.byteRead 0 17#8 = b' := by
    rw [State.byteRead, readByte, h.answers, htread]
    rfl
  rw [fieldByte_deassert, hb'] at huread g
  exact ⟨u, (planBind_of_done ht).trans hu, huread, h.trans g⟩

/-- The pulse whose `k`-th transaction fails: a write of it succeeded exactly if the assert write did (R188, R248). -/
theorem relockWrites_failed {s : State} {k : Nat} (hk : k < 4) (hs : s.portServes k)
    (hf : s.outcomeAt k = some .failed) :
    ∃ t new, relockWrites s = .raised (if k % 2 = 0 then .transportRead else .transportWrite) 17#8 t ∧
      Effect [17#8] 4 new s t ∧ new.length = k + 1 ∧ new.any PortEvent.isWriteOk = decide (2 ≤ k) := by
  have hm : (0x20#8 : Byte) ≠ 0xFF#8 := by decide
  rcases lt_or_ge k 2 with hlt | hge
  · obtain ⟨t, new, ht, h, hlen, hany⟩ := fieldWrite_failed hm 5 1#8 hlt hs hf
    exact ⟨t, new, planBind_of_raised ht, h.mono (fun _ => id) (by decide), hlen,
      hany.trans (decide_eq_false hlt.not_ge).symm⟩
  · obtain ⟨j, rfl⟩ := Nat.exists_eq_add_of_le' hge
    obtain ⟨t, ht, -, h⟩ := fieldWrite_served hm 5 1#8 (hs.mono hge)
    obtain ⟨u, new, hu, g, hlen, -⟩ := fieldWrite_failed hm 5 0#8 (k := j) (by omega) (h.portServes hs)
      ((h.outcomes j).trans hf)
    refine ⟨u, _, (planBind_of_done ht).trans ?_, h.trans g, by simp [hlen], ?_⟩
    · rw [hu, Nat.add_mod_right]
    · rw [List.any_append, decide_eq_true hge]
      rfl

end Sys2Proof.Machine
end

section
/-! Proofs on the family 42_clock_negotiator: the command NEG (spec 42_clock_negotiator.md rules R187 to R193,
60_exceptions.md rules R241, R247). -/

namespace Sys2Proof.Machine

/-! How NEG ends. -/

theorem exec_neg_of_error {s : State} {e : Report} (h : planClock s.cfg s.opArg0 s.opArg1 = .error e) :
    exec .neg s = .next (endCommand e 0#8 s) := by
  simp only [exec, execNeg, h]

section
variable {s : State} {p : ClockPlan} (hp : planClock s.cfg s.opArg0 s.opArg1 = .ok p)
include hp

theorem exec_neg_of_ok :
    exec .neg s = .next (finish (fun relock t => t.reportPlan p relock) (relockIfChanged p.family s)) := by
  simp only [exec, execNeg, hp]

/-- No family, or the family last recorded, needs no pulse (R187). -/
theorem exec_neg_of_same_family (hf : p.family = none ∨ p.family = s.ds.lastClass) :
    exec .neg s = .next (endCommand .ok 0#8 (s.reportPlan p false)) := by
  have hno : relockIfChanged p.family s = .done false s := by
    cases hc : p.family with
    | none => rfl
    | some f =>
      have hlast : s.ds.lastClass = some f := (hf.resolve_left (by simp [hc])).symm.trans hc
      exact if_pos hlast
  rw [exec_neg_of_ok hp, hno]
  rfl

variable {f : Family} (hf : p.family = some f) (hl : s.ds.lastClass ≠ some f)
include hf hl

theorem exec_neg_of_pulse_done {t : State} (ht : relockWrites s = .done () t) :
    exec .neg s = .next (endCommand .ok 0#8 ((t.setDs { t.ds with lastClass := some f }).reportPlan p true)) := by
  rw [exec_neg_of_ok hp, hf, relockIfChanged_pulse hl, ht]
  rfl

theorem exec_neg_of_pulse_raised {e : Report} {addr : Byte} {t : State} (ht : relockWrites s = .raised e addr t) :
    exec .neg s = .next (endCommand e addr t) := by
  rw [exec_neg_of_ok hp, hf, relockIfChanged_pulse hl, ht]
  rfl

end

/-! The words of a plan. -/

theorem planWord_toNat (relock : Bool) (source : ClockSource) :
    (planWord relock source).toNat = (if relock then 4 else 0) + (sourceCode source).toNat := by
  cases relock <;> cases source <;> rfl

/-- The result registers hold a plan's numbers exactly (R189). -/
theorem reportPlan_words {c : Cfg} {rate format : Word} {p : ClockPlan} (h : planClock c rate format = .ok p)
    (relock : Bool) (s : State) :
    (s.reportPlan p relock).res0.toNat = p.sysclk ∧
      (s.reportPlan p relock).res1.toNat + 2 ^ 32 * (s.reportPlan p relock).res2.toNat = p.bclk ∧
      (s.reportPlan p relock).res3.toNat = p.divisor ∧
      (s.reportPlan p relock).res4.toNat = (if relock then 4 else 0) + (sourceCode p.source).toNat := by
  obtain ⟨hsys, hbclk, hdiv⟩ := planClock_ok_lt h
  refine ⟨Nat.mod_eq_of_lt hsys, ?_, Nat.mod_eq_of_lt hdiv, planWord_toNat relock p.source⟩
  show p.bclk % 2 ^ 32 + 2 ^ 32 * (p.bclk >>> 32 % 2 ^ 32) = p.bclk
  rw [Nat.shiftRight_eq_div_pow, Nat.mod_eq_of_lt (Nat.div_lt_of_lt_mul (by omega)), Nat.mod_add_div]

/-! The statements. -/

/-- Settles O34: the command ends at once with the plan's error, which is not of class TRANSPORT. -/
theorem negErrorsComeBeforeAnyTransaction : Obligations.NegErrorsComeBeforeAnyTransaction := by
  intro s e h
  have he := planClock_error h
  have hpart : (e.isTransport && s.wroteAny) = false := by
    rcases he with rfl | rfl | rfl | rfl <;> rfl
  exact ⟨by simpa using he, _, exec_neg_of_error h, endCommand_endedWith_of_lastOp rfl hpart,
    ⟨⟨rfl, rfl, rfl, rfl, rfl⟩, rfl, rfl, rfl, rfl, rfl⟩, endCommand_sameInputs e 0#8 s⟩

/-- Settles O35: no pulse is needed, and the command ends with the plan's words. -/
theorem negWithoutRelockReportsThePlan : Obligations.NegWithoutRelockReportsThePlan := by
  intro s p hp hf
  obtain ⟨h0, h12, h3, h4⟩ := reportPlan_words hp false s
  refine ⟨_, exec_neg_of_same_family hp hf, endCommand_endedWith_of_lastOp rfl rfl, rfl, ⟨rfl, rfl, rfl, rfl⟩,
    endCommand_sameInputs .ok 0#8 (s.reportPlan p false), h0, h12, h3, h4.trans ?_, rfl⟩
  cases p.source <;> rfl

/-- Settles O36: the pulse's four transactions go through, and then the family and the plan are recorded. -/
theorem negRelockPulsesAndRecordsTheFamily : Obligations.NegRelockPulsesAndRecordsTheFamily := by
  intro s p f hp hf hl hs b x b' x'
  obtain ⟨t, ht, hread, h⟩ := relockWrites_served hs
  obtain ⟨h0, h12, h3, h4⟩ := reportPlan_words hp true (t.setDs { t.ds with lastClass := some f })
  refine ⟨_, exec_neg_of_pulse_done hp hf hl ht, endCommand_endedWith_of_lastOp h.status_lastOp rfl, h.log, hread,
    h.frame, congrArg (fun d => { d with lastClass := some f }) h.ds, h.sameInputs, h0, h12, h3, h4.trans ?_⟩
  cases p.source <;> rfl

/-- Settles O37: the pulse raises the error of its `k`-th transaction, and neither the family nor a result is written. -/
theorem failedRelockKeepsTheLastFamily : Obligations.FailedRelockKeepsTheLastFamily := by
  intro s p f k hp hf hl hw hk hs hfail
  obtain ⟨t, new, ht, h, hlen, hany⟩ := relockWrites_failed hk hs hfail
  have hpart : ((if k % 2 = 0 then Report.transportRead else .transportWrite).isTransport && t.wroteAny) =
      decide (2 ≤ k) := by
    rw [h.wroteAny, hw, hany]
    split <;> rfl
  refine ⟨_, exec_neg_of_pulse_raised hp hf hl ht, endCommand_endedWith_of_lastOp h.status_lastOp hpart, h.ds,
    h.sameResults, h.frame, ?_⟩
  show t.log.length = _
  rw [h.log, List.length_append, hlen, Nat.add_assoc]

end Sys2Proof.Machine
end

section
/-! Proofs on the family 43_mute_sequencer: a field write that went through, the write of the mute bit, and the plan of
FMT.SPDIF when the port serves it (spec 41_control_registry.md rule R141, 43_mute_sequencer.md rules R211, R215). -/

namespace Sys2Proof.Machine

/-! What a plan that went through did. -/

theorem planBind_eq_done {α β : Type} {p : Plan α} {f : α → Plan β} {b : β} {s u : State}
    (h : planBind p f s = .done b u) : ∃ a t, p s = .done a t ∧ f a t = .done b u := by
  cases hp : p s with
  | done a t => exact ⟨a, t, rfl, (planBind_of_done hp).symm.trans h⟩
  | raised e addr t => rw [planBind_of_raised hp] at h; cases h
  | stopped t => rw [planBind, hp] at h; cases h

theorem memRead_eq_done {a b : Byte} {s t : State} (h : memRead a s = .done b t) : t = s.afterRead a b := by
  unfold memRead at h
  split at h <;> cases h
  rfl

theorem memWrite_eq_done {a v : Byte} {s t : State} (h : memWrite a v s = .done () t) : t = s.afterWrite a v := by
  unfold memWrite at h
  split at h <;> cases h
  rfl

/-- A field write that went through wrote the field over the byte its read returned, whatever that was (R141). -/
theorem fieldWrite_eq_done {reg mask : Byte} (hm : mask ≠ 0xFF#8) {shift : Nat} {code : Byte} {s t : State}
    (h : fieldWrite reg mask shift code s = .done () t) :
    ∃ b, t.periph.read reg = fieldByte mask shift code b ∧
      Effect [reg] 2 [.readOk reg b, .writeOk reg (fieldByte mask shift code b)] s t := by
  rw [fieldWrite, if_neg hm] at h
  obtain ⟨b, u, hread, hwrite⟩ := planBind_eq_done h
  obtain rfl := memRead_eq_done hread
  obtain rfl := memWrite_eq_done hwrite
  exact ⟨b, State.afterWrite_read_same reg _ _, ((Effect.readOk reg b s).mono (by simp) le_rfl).trans (.writeOk reg _ _)⟩

theorem PlanSpec.effect_of_done {α : Type} {regs : List Byte} {n : Nat} {s t : State} {a : α}
    (h : PlanSpec regs n s (.done a t)) : ∃ new, Effect regs n new s t := by
  cases h with
  | done a t new h => exact ⟨new, h⟩

/-! The write of the mute bit. -/

/-- The byte `FieldWrite(MUTE, v)` writes over `b` (R141). -/
def muteByte (v : Bool) (b : Byte) : Byte := if v then b ||| 0x01#8 else b &&& 0xFE#8

theorem muteByte_getLsbD_zero (v : Bool) (b : Byte) : (muteByte v b).getLsbD 0 = v := by
  revert v b
  decide

theorem fieldByte_mute (v : Bool) (b : Byte) : fieldByte 0x01#8 0 (if v then 1#8 else 0#8) b = muteByte v b := by
  revert v b
  decide

theorem writeMute_served (v : Bool) {s : State} (hs : s.portServes 2) :
    let b := s.byteRead 0 10#8
    ∃ t, writeMute v s = .done () t ∧ t.periph.read 10#8 = muteByte v b ∧
      Effect [10#8] 2 [.readOk 10#8 b, .writeOk 10#8 (muteByte v b)] s t := by
  simp only [← fieldByte_mute]
  exact fieldWrite_served (by decide) _ _ hs

theorem writeMute_eq_done {v : Bool} {s t : State} (h : writeMute v s = .done () t) :
    ∃ b, t.periph.read 10#8 = muteByte v b ∧ Effect [10#8] 2 [.readOk 10#8 b, .writeOk 10#8 (muteByte v b)] s t := by
  simp only [← fieldByte_mute]
  exact fieldWrite_eq_done (by decide) h

theorem unmuteIfAllowed_of_eff {s : State} (h : s.ds.eff = true) : unmuteIfAllowed s = .done () s := if_pos h

theorem unmuteIfAllowed_of_not_eff {s : State} (h : s.ds.eff = false) : unmuteIfAllowed s = writeMute false s :=
  if_neg (by simp [h])

/-! The plan of FMT.SPDIF. -/

/-- The two writes of FMT.SPDIF that reconfigure the device: SPDIF input forced, autodetect enabled (R215). -/
def spdifWrites : Plan Unit := planBind (fieldWrite 8#8 0x80#8 7 1#8) fun _ => fieldWrite 17#8 0x08#8 3 1#8

theorem fmtSpdifPlan_eq :
    fmtSpdifPlan = planBind (writeMute true) fun _ => planBind spdifWrites fun _ => unmuteIfAllowed := by
  simp only [spdifWrites, planBind_assoc]
  rfl

theorem spdifWrites_spec (s : State) : PlanSpec [8#8, 17#8] 4 s (spdifWrites s) :=
  .bind (n := 2) (m := 2) (fieldWrite_spec _ _ _ _ _ (by simp) s) fun _ t => fieldWrite_spec _ _ _ _ _ (by simp) t

theorem fieldByte_spdifForce (b : Byte) : fieldByte 0x80#8 7 1#8 b = b ||| 0x80#8 := by
  revert b
  decide

theorem fieldByte_spdifAutodetect (b : Byte) : fieldByte 0x08#8 3 1#8 b = b ||| 0x08#8 := by
  revert b
  decide

/-- A byte read from a register that the transactions so far left alone. -/
theorem Effect.byteRead {regs : List Byte} {n : Nat} {new : List PortEvent} {s t : State} (h : Effect regs n new s t)
    {a : Byte} (ha : a ∉ regs) (k : Nat) : t.byteRead k a = s.byteRead (k + new.length) a := by
  simp only [State.byteRead, readByte, h.answers, h.frame a ha]

theorem spdifWrites_served {s : State} (hs : s.portServes 4) :
    let b8 := s.byteRead 0 8#8
    let b17 := s.byteRead 2 17#8
    ∃ t, spdifWrites s = .done () t ∧ t.periph.read 8#8 = (b8 ||| 0x80#8) ∧ t.periph.read 17#8 = (b17 ||| 0x08#8) ∧
      Effect [8#8, 17#8] 4 [.readOk 8#8 b8, .writeOk 8#8 (b8 ||| 0x80#8), .readOk 17#8 b17,
        .writeOk 17#8 (b17 ||| 0x08#8)] s t := by
  intro b8 b17
  obtain ⟨t, ht, htread, h⟩ :=
    fieldWrite_served (reg := 8#8) (mask := 0x80#8) (by decide) 7 1#8 (hs.mono (by decide))
  obtain ⟨u, hu, huread, g⟩ :=
    fieldWrite_served (reg := 17#8) (mask := 0x08#8) (by decide) 3 1#8 (h.portServes (m := 2) hs)
  rw [fieldByte_spdifForce] at htread h
  rw [fieldByte_spdifAutodetect, h.byteRead (by decide)] at huread g
  exact ⟨u, (planBind_of_done ht).trans hu, (g.frame 8#8 (by decide)).trans htread, huread,
    (h.mono (by simp) le_rfl).trans (g.mono (by simp) le_rfl)⟩

end Sys2Proof.Machine
end

section
/-! Proofs on the family 43_mute_sequencer: the commands STREAM.START, STREAM.STOP, MUTE.SET, MUTE.CLR, FMT.SPDIF and
MUTEMODE when the port serves them, and DeviceState however they go (spec 43_mute_sequencer.md rules R210 to R216). -/

namespace Sys2Proof.Machine

/-! Commands that write the mute bit, and commands that leave it alone. -/

/-- A command that is an update of DeviceState and a served write of the mute bit. -/
theorem exec_writeMute_served {i : Instr} {v : Bool} {d : DeviceState} {s : State}
    (hi : exec i s = .next (finishPlain (writeMute v (s.setDs d)))) (hs : s.portServes 2) :
    let b := s.byteRead 0 10#8
    ∃ t, exec i s = .next t ∧ EndedOk s t ∧ t.ds = d ∧
      t.log = s.log ++ [.readOk 10#8 b, .writeOk 10#8 (muteByte v b)] ∧ t.periph.read 10#8 = muteByte v b ∧
      SamePeriphBut [10#8] s t ∧ SameInputs s t ∧ SameResults s t := by
  obtain ⟨t, ht, hread, h⟩ := writeMute_served v (s := s.setDs d) hs
  refine ⟨endCommand .ok 0#8 t, ?_, endCommand_endedWith_of_lastOp h.status_lastOp rfl, h.ds, h.log, hread, h.frame,
    h.sameInputs, h.sameResults⟩
  rw [hi, ht]
  rfl

/-- A command that is an update of DeviceState and nothing else. -/
theorem exec_setDs_only {i : Instr} {d : DeviceState} {s : State}
    (hi : exec i s = .next (finishPlain (.done () (s.setDs d)))) :
    ∃ t, exec i s = .next t ∧ EndedOk s t ∧ t.ds = d ∧ NoTransaction s t ∧ SameInputs s t ∧ SameResults s t :=
  ⟨_, hi, endCommand_endedWith_of_lastOp rfl rfl, rfl, ⟨rfl, rfl, rfl, rfl⟩,
    endCommand_sameInputs .ok 0#8 (s.setDs d), rfl, rfl, rfl, rfl, rfl⟩

/-! STREAM.START and STREAM.STOP. -/

/-- With the stream unmuted only the forced mute holds (R31). -/
theorem eff_streamUnmuted (d : DeviceState) : ({ d with streamMuted := false } : DeviceState).eff = d.forceMute := by
  simp [DeviceState.eff]

/-- With the stream muted the OnIdle policy mutes (R31). -/
theorem eff_streamMuted_onIdle {d : DeviceState} (h : d.muteMode = .onIdle) :
    ({ d with streamMuted := true } : DeviceState).eff = true := by
  simp [DeviceState.eff, h]

/-- Under the Never policy the stream's mute counts for nothing (R29, R31). -/
theorem eff_streamMuted_never {d : DeviceState} (h : d.muteMode = .never) :
    ({ d with streamMuted := true } : DeviceState).eff = d.eff := by
  simp [DeviceState.eff, h]

theorem streamStartPlan_of_forced {s : State} (h : s.ds.forceMute = true) :
    streamStartPlan s = .done () (s.setDs { s.ds with streamMuted := false }) :=
  unmuteIfAllowed_of_eff ((eff_streamUnmuted s.ds).trans h)

theorem streamStartPlan_of_not_forced {s : State} (h : s.ds.forceMute = false) :
    streamStartPlan s = writeMute false (s.setDs { s.ds with streamMuted := false }) :=
  unmuteIfAllowed_of_not_eff ((eff_streamUnmuted s.ds).trans h)

theorem streamStopPlan_of_never {s : State} (h : s.ds.muteMode = .never) :
    streamStopPlan s = .done () (s.setDs { s.ds with streamMuted := true }) := if_neg (by simp [h])

theorem streamStopPlan_of_onIdle {s : State} (h : s.ds.muteMode = .onIdle) :
    streamStopPlan s = writeMute true (s.setDs { s.ds with streamMuted := true }) := if_pos h

theorem exec_streamStart (s : State) : exec .streamStart s = .next (finishPlain (streamStartPlan s)) := rfl

theorem exec_streamStop (s : State) : exec .streamStop s = .next (finishPlain (streamStopPlan s)) := rfl

/-- Settles O38: the forced mute is what effective mute is once the stream is unmuted. -/
theorem streamStartUnmutesIfNothingHoldsTheMute : Obligations.StreamStartUnmutesIfNothingHoldsTheMute :=
  fun s => ⟨fun h => exec_setDs_only (streamStartPlan_of_forced h ▸ exec_streamStart s),
    fun h => exec_writeMute_served (v := false) (streamStartPlan_of_not_forced h ▸ exec_streamStart s)⟩

/-- Settles O39: the policy decides whether the mute bit is written. -/
theorem streamStopMutesUnderTheIdlePolicy : Obligations.StreamStopMutesUnderTheIdlePolicy :=
  fun s => ⟨fun h => exec_setDs_only (streamStopPlan_of_never h ▸ exec_streamStop s),
    fun h => exec_writeMute_served (v := true) (streamStopPlan_of_onIdle h ▸ exec_streamStop s)⟩

/-! MUTE.SET, MUTE.CLR and MUTEMODE. -/

theorem exec_muteMode_of_some {s : State} {m : MuteMode} (h : muteModeOperand s.opArg0 = some m) :
    exec .muteMode s = .next (finishPlain (muteModePlan m s)) := by
  simp only [exec, execMuteMode, h]

theorem exec_muteMode_of_none {s : State} (h : muteModeOperand s.opArg0 = none) :
    exec .muteMode s = .next (endCommand .outOfRange 0#8 s) := by
  simp only [exec, execMuteMode, h]

/-- A word above 1 has one of bits 31:1 set (R216). -/
theorem muteModeOperand_eq_none {v : Word} (h : 1 < v.toNat) : muteModeOperand v = none := by
  refine if_pos fun hz => ?_
  have hhigh : v.toNat / 2 % 2 ^ 31 = 0 := by
    simpa [Nat.shiftRight_eq_div_pow] using congrArg BitVec.toNat hz
  have := v.isLt
  omega

/-- Settles O40: each of the commands writes effective mute as its update leaves it. -/
theorem muteCommandsApplyEffectiveMute : Obligations.MuteCommandsApplyEffectiveMute := by
  intro s i d hs hi
  refine exec_writeMute_served (v := d.eff) ?_ hs
  rcases hi with ⟨rfl, rfl⟩ | ⟨rfl, rfl⟩ | ⟨rfl, ha, rfl⟩ | ⟨rfl, ha, rfl⟩
  · rfl
  · rfl
  · exact exec_muteMode_of_some (by rw [ha]; rfl)
  · exact exec_muteMode_of_some (by rw [ha]; rfl)

/-- Settles O41: the operand is none, and the command ends at once. -/
theorem muteModeRefusesOtherWords : Obligations.MuteModeRefusesOtherWords := fun s h =>
  ⟨_, exec_muteMode_of_none (muteModeOperand_eq_none h), endCommand_endedWith .outOfRange 0#8 s,
    ⟨⟨rfl, rfl, rfl, rfl, rfl⟩, rfl, rfl, rfl, rfl, rfl⟩, endCommand_sameInputs .outOfRange 0#8 s⟩

/-! FMT.SPDIF. -/

theorem exec_fmtSpdif (s : State) : exec .fmtSpdif s = .next (finishPlain (fmtSpdifPlan s)) := rfl

/-- FMT.SPDIF up to its last step, which unmutes if it may, when the port serves the six transactions so far (R215). -/
theorem fmtSpdifPlan_served {s : State} (hs : s.portServes 6) :
    let b10 := s.byteRead 0 10#8
    let b8 := s.byteRead 2 8#8
    let b17 := s.byteRead 4 17#8
    ∃ t, fmtSpdifPlan s = unmuteIfAllowed t ∧ t.periph.read 10#8 = (b10 ||| 0x01#8) ∧
      t.periph.read 8#8 = (b8 ||| 0x80#8) ∧ t.periph.read 17#8 = (b17 ||| 0x08#8) ∧
      Effect [10#8, 8#8, 17#8] 6 [.readOk 10#8 b10, .writeOk 10#8 (b10 ||| 0x01#8), .readOk 8#8 b8,
        .writeOk 8#8 (b8 ||| 0x80#8), .readOk 17#8 b17, .writeOk 17#8 (b17 ||| 0x08#8)] s t := by
  intro b10 b8 b17
  obtain ⟨t, ht, hread10, h⟩ := writeMute_served true (hs.mono (by decide))
  obtain ⟨u, hu, hread8, hread17, g⟩ := spdifWrites_served (h.portServes (m := 4) hs)
  rw [h.byteRead (by decide)] at hread8 g
  rw [h.byteRead (by decide)] at hread17 g
  refine ⟨u, ?_, (g.frame 10#8 (by decide)).trans hread10, hread8, hread17,
    (h.mono (by simp) le_rfl).trans (g.mono (by simp) le_rfl)⟩
  rw [fmtSpdifPlan_eq, planBind_of_done ht, planBind_of_done hu]

/-- Settles O42: six transactions under mute, and the last step's two where effective mute is false. -/
theorem fmtSpdifSwitchesUnderMute : Obligations.FmtSpdifSwitchesUnderMute := by
  intro s hs b10 b8 b17 c10
  obtain ⟨t, ht, hread10, hread8, hread17, h⟩ := fmtSpdifPlan_served (s := s) (hs.mono (by split <;> decide))
  cases heff : s.ds.eff with
  | true =>
    rw [unmuteIfAllowed_of_eff (h.ds.symm ▸ heff)] at ht
    refine ⟨endCommand .ok 0#8 t, ?_, endCommand_endedWith_of_lastOp h.status_lastOp rfl, h.ds, h.sameInputs,
      h.sameResults, hread8, hread17, h.frame, fun _ => ⟨h.log, hread10⟩, nofun⟩
    rw [exec_fmtSpdif, ht]
    rfl
  | false =>
    rw [heff] at hs
    obtain ⟨u, hu, huread, g⟩ := writeMute_served false (h.portServes (m := 2) hs)
    have hc10 : t.byteRead 0 10#8 = c10 := by
      rw [State.byteRead, readByte, h.answers, hread10]
      rfl
    rw [hc10] at huread g
    have hall := h.trans (g.mono (by simp) le_rfl)
    refine ⟨endCommand .ok 0#8 u, ?_, endCommand_endedWith_of_lastOp hall.status_lastOp rfl, hall.ds, hall.sameInputs,
      hall.sameResults, (g.frame 8#8 (by decide)).trans hread8, (g.frame 17#8 (by decide)).trans hread17, hall.frame,
      nofun, fun _ => ⟨hall.log.trans (List.append_assoc _ _ _).symm, huread⟩⟩
    rw [exec_fmtSpdif, ht, unmuteIfAllowed_of_not_eff (h.ds.symm ▸ heff), hu]
    rfl

/-! DeviceState, however a command goes. -/

theorem dsStep_of_exec {i : Instr} {s t : State} (hi : i ≠ .neg) (h : exec i s = .next t) : DsStep i s t.ds := by
  obtain ⟨d, hd, rfl | ⟨hneg, -⟩⟩ := (run_of_exec h).ds
  · exact hd
  · exact absurd hneg hi

theorem ds_of_exec_muteMode {s t : State} {m : MuteMode} (h : exec .muteMode s = .next t)
    (hm : muteModeOperand s.opArg0 = some m) : t.ds = { s.ds with muteMode := m } := by
  have hd : t.ds = _ := dsStep_of_exec (by simp) h
  rw [hd, hm]
  rfl

/-- Settles O43: a command's run starts from its rule's update, and nothing after it writes DeviceState. -/
theorem sequencerUpdatesDeviceStateFirst : Obligations.SequencerUpdatesDeviceStateFirst := fun _ _ =>
  ⟨dsStep_of_exec (by simp), dsStep_of_exec (by simp), dsStep_of_exec (by simp), dsStep_of_exec (by simp),
    dsStep_of_exec (by simp), fun h ha => ds_of_exec_muteMode h (by rw [ha]; rfl),
    fun h ha => ds_of_exec_muteMode h (by rw [ha]; rfl)⟩

end Sys2Proof.Machine
end

section
/-! Proofs on the family 43_mute_sequencer: the hardware mute bit after a command that ends without error, and FMT.SPDIF's
mute before it reconfigures (spec 43_mute_sequencer.md rule R217, 10_state.md rule R32). -/

namespace Sys2Proof.Machine

/-! The mute bit after a plan that went through. -/

theorem muteBit_of_writeMute {v : Bool} {s t : State} (h : writeMute v s = .done () t) : t.muteBit = v := by
  obtain ⟨b, hread, -⟩ := writeMute_eq_done h
  rw [State.muteBit, hread, muteByte_getLsbD_zero]

theorem ds_of_writeMute {v : Bool} {s t : State} (h : writeMute v s = .done () t) : t.ds = s.ds := by
  obtain ⟨b, -, h⟩ := writeMute_eq_done h
  exact h.ds

theorem Effect.muteBit {regs : List Byte} {n : Nat} {new : List PortEvent} {s t : State} (h : Effect regs n new s t)
    (hr : 10#8 ∉ regs) : t.muteBit = s.muteBit := congrArg (BitVec.getLsbD · 0) (h.frame 10#8 hr)

/-- A write of the mute bit with the value of effective mute makes the bit reflect it. -/
theorem reflected_of_writeMute {v : Bool} {s t : State} (h : writeMute v s = .done () t) (hv : v = s.ds.eff) :
    t.muteReflected := by
  rw [State.muteReflected, muteBit_of_writeMute h, ds_of_writeMute h, hv]

theorem reflected_of_applyMute {s t : State} (h : applyMute s = .done () t) : t.muteReflected :=
  reflected_of_writeMute h rfl

/-- The unmuting step reflects effective mute if the bit was set where effective mute holds. -/
theorem reflected_of_unmuteIfAllowed {s t : State} (h : unmuteIfAllowed s = .done () t)
    (hm : s.ds.eff = true → s.muteBit = true) : t.muteReflected := by
  cases heff : s.ds.eff with
  | true =>
    rw [unmuteIfAllowed_of_eff heff] at h
    cases h
    exact (hm heff).trans heff.symm
  | false =>
    rw [unmuteIfAllowed_of_not_eff heff] at h
    exact reflected_of_writeMute h heff.symm

theorem reflected_of_streamStartPlan {s t : State} (h : streamStartPlan s = .done () t) (hr : s.muteReflected) :
    t.muteReflected := by
  refine reflected_of_unmuteIfAllowed h fun heff => ?_
  have hforced : s.ds.forceMute = true := (eff_streamUnmuted s.ds).symm.trans heff
  exact hr.trans (by simp [DeviceState.eff, hforced])

theorem reflected_of_streamStopPlan {s t : State} (h : streamStopPlan s = .done () t) (hr : s.muteReflected) :
    t.muteReflected := by
  cases hm : s.ds.muteMode with
  | never =>
    rw [streamStopPlan_of_never hm] at h
    cases h
    exact hr.trans (eff_streamMuted_never hm).symm
  | onIdle =>
    rw [streamStopPlan_of_onIdle hm] at h
    exact reflected_of_writeMute h (eff_streamMuted_onIdle hm).symm

/-- The first step sets the bit, the reconfiguring writes leave it, and the last step clears it if it may. -/
theorem reflected_of_fmtSpdifPlan {s t : State} (h : fmtSpdifPlan s = .done () t) : t.muteReflected := by
  rw [fmtSpdifPlan_eq] at h
  obtain ⟨_, u, hmute, h⟩ := planBind_eq_done h
  obtain ⟨_, v, hspdif, h⟩ := planBind_eq_done h
  obtain ⟨new, g⟩ := (hspdif ▸ spdifWrites_spec u).effect_of_done
  exact reflected_of_unmuteIfAllowed h fun _ => (g.muteBit (by decide)).trans (muteBit_of_writeMute hmute)

/-! The mute bit after a command. -/

/-- A command that ends without error leaves the mute bit equal to effective mute. -/
def EndsReflected (i : Instr) (s : State) : Prop :=
  ∀ t, exec i s = .next t → t.fsm = .idle → t.status.report = .ok → t.muteReflected

/-- A plan that left the block IDLE with no error went through (R242, R289, R272). -/
theorem PlanSpec.done_of_ended_ok {regs : List Byte} {n : Nat} {s : State} {r : PlanResult Unit}
    (h : PlanSpec regs n s r) (hb : s.fsm = .busy) (hi : (finishPlain r).fsm = .idle)
    (hok : (finishPlain r).status.report = .ok) : ∃ t, r = .done () t := by
  cases h with
  | done a t => exact ⟨t, rfl⟩
  | readFailed | writeFailed => cases hok
  | hung t pre e g => cases hb.symm.trans (g.fsm.symm.trans hi)
  | left t new g => cases hb.symm.trans (g.fsm.symm.trans hi)

theorem endsReflected_of_plan {i : Instr} {d : DeviceState} {regs : List Byte} {n : Nat} {s : State}
    {r : PlanResult Unit} (hx : exec i s = .next (finishPlain r)) (hs : PlanSpec regs n (s.setDs d) r)
    (hb : s.fsm = .busy) (hr : ∀ t, r = .done () t → t.muteReflected) : EndsReflected i s := by
  intro t ht hi hok
  obtain rfl : finishPlain r = t := Host.Outcome.next.inj (hx.symm.trans ht)
  obtain ⟨u, rfl⟩ := hs.done_of_ended_ok hb hi hok
  exact hr u rfl

theorem endsReflected_of_error {i : Instr} {s : State} {e : Report} {addr : Byte}
    (hx : exec i s = .next (endCommand e addr s)) (he : e ≠ .ok) : EndsReflected i s := by
  intro t ht _ hok
  obtain rfl : endCommand e addr s = t := Host.Outcome.next.inj (hx.symm.trans ht)
  exact absurd hok he

theorem EndsReflected.congr {i j : Instr} {s : State} (h : EndsReflected i s) (hx : exec j s = exec i s) :
    EndsReflected j s := fun t ht => h t (hx.symm.trans ht)

section
variable {s : State} (hb : s.fsm = .busy)
include hb

theorem muteSet_endsReflected : EndsReflected .muteSet s :=
  endsReflected_of_plan rfl (muteSetPlan_spec s) hb fun _ => reflected_of_applyMute

theorem muteClr_endsReflected : EndsReflected .muteClr s :=
  endsReflected_of_plan rfl (muteClrPlan_spec s) hb fun _ => reflected_of_applyMute

theorem muteMode_endsReflected : EndsReflected .muteMode s := by
  cases hm : muteModeOperand s.opArg0 with
  | none => exact endsReflected_of_error (exec_muteMode_of_none hm) (by simp)
  | some m =>
    exact endsReflected_of_plan (exec_muteMode_of_some hm) (muteModePlan_spec m s) hb fun _ => reflected_of_applyMute

theorem fmtSpdif_endsReflected : EndsReflected .fmtSpdif s :=
  endsReflected_of_plan (d := s.ds) (exec_fmtSpdif s) (fmtSpdifPlan_spec s) hb fun _ => reflected_of_fmtSpdifPlan

/-- CTL.WR MUTE is MUTE.SET or MUTE.CLR for a legal value, and an error for any other (R143, R158). -/
theorem ctlWrMute_endsReflected : EndsReflected (.ctlWr 0x01#8) s := by
  obtain ⟨hset, hclr⟩ := ctlWrMuteRunsTheMutePlans s
  by_cases hv : tableAllows .mute s.opArg0.toNat
  · rcases hv with h0 | h1
    · exact (muteClr_endsReflected hb).congr (hclr (BitVec.eq_of_toNat_eq h0))
    · exact (muteSet_endsReflected hb).congr (hset (BitVec.eq_of_toNat_eq h1))
  · exact endsReflected_of_error (exec_ctlWr_of_not_allowed rfl hv) (by simp)

variable (hr : s.muteReflected)
include hr

theorem streamStart_endsReflected : EndsReflected .streamStart s :=
  endsReflected_of_plan (exec_streamStart s) (streamStartPlan_spec s) hb fun _ h => reflected_of_streamStartPlan h hr

theorem streamStop_endsReflected : EndsReflected .streamStop s :=
  endsReflected_of_plan (exec_streamStop s) (streamStopPlan_spec s) hb fun _ h => reflected_of_streamStopPlan h hr

end

/-- Settles O44: only STREAM.START and STREAM.STOP can leave the bit unwritten, and then effective mute is as it was; every
other command sets the bit to it. -/
theorem sequencerKeepsTheMuteBitReflected : Obligations.SequencerKeepsTheMuteBitReflected := by
  intro i s t hi hb ht hidle hok hr
  suffices h : EndsReflected i s from h t ht hidle hok
  simp only [List.mem_cons, List.not_mem_nil, or_false] at hi
  rcases hi with rfl | rfl | rfl | rfl | rfl | rfl | rfl
  · exact streamStart_endsReflected hb hr
  · exact streamStop_endsReflected hb hr
  · exact muteSet_endsReflected hb
  · exact muteClr_endsReflected hb
  · exact fmtSpdif_endsReflected hb
  · exact muteMode_endsReflected hb
  · exact ctlWrMute_endsReflected hb

/-! FMT.SPDIF mutes before it reconfigures. -/

/-- Every transaction on register 8 or 17 comes after a write of register 10 that succeeded with bit 0 set (R217). -/
def MutedFirst (new : List PortEvent) : Prop :=
  ∀ pre e post, new = pre ++ e :: post → (e.reg = 8#8 ∨ e.reg = 17#8) →
    ∃ v : Byte, PortEvent.writeOk 10#8 v ∈ pre ∧ v.getLsbD 0 = true

theorem MutedFirst.of_reg {new : List PortEvent} (h : ∀ e ∈ new, e.reg = 10#8) : MutedFirst new := by
  intro pre e post hn hreg
  have h10 : e.reg = 10#8 := h e (by simp [hn])
  simp [h10] at hreg

/-- What comes after transactions on register 10 alone, a successful muting write among them. -/
theorem MutedFirst.append {l : List PortEvent} {v : Byte} (hl : ∀ e ∈ l, e.reg = 10#8)
    (hw : PortEvent.writeOk 10#8 v ∈ l) (hv : v.getLsbD 0 = true) (k : List PortEvent) : MutedFirst (l ++ k) := by
  intro pre e post hn hreg
  rcases List.append_eq_append_iff.1 hn with ⟨mid, rfl, -⟩ | ⟨mid, rfl, hmid⟩
  · exact ⟨v, List.mem_append_left _ hw, hv⟩
  · cases mid with
    | nil => exact ⟨v, by simpa using hw, hv⟩
    | cons e' mid =>
      obtain ⟨rfl, -⟩ := List.cons.inj hmid
      exact absurd hreg (by simp [hl e])

/-- The end of a command adds no transaction. -/
theorem finishPlain_log (r : PlanResult Unit) : (finishPlain r).log = r.state.log := by
  cases r <;> rfl

theorem PlanNames.mutedFirst {s : State} {r : PlanResult Unit} (h : PlanNames [10#8] s r) :
    ∃ new, r.state.log = s.log ++ new ∧ MutedFirst new :=
  let ⟨new, hlog, hreg⟩ := h
  ⟨new, hlog, .of_reg (by simpa using hreg)⟩

/-- FMT.SPDIF after its first step. -/
theorem spdifWrites_unmute_names (s : State) :
    PlanNames [8#8, 17#8, 10#8] s (planBind spdifWrites (fun _ => unmuteIfAllowed) s) :=
  .bind (.bind (fieldWrite_names (by simp) _ _ _ s) fun _ t => fieldWrite_names (by simp) _ _ _ t) fun _ t =>
    (unmuteIfAllowed_names t).mono (by simp)

theorem fmtSpdifPlan_mutedFirst (s : State) : ∃ new, (fmtSpdifPlan s).state.log = s.log ++ new ∧ MutedFirst new := by
  have hnames := writeMute_names true s
  rw [fmtSpdifPlan_eq]
  cases hmute : writeMute true s with
  | done a t =>
    obtain ⟨b, -, h⟩ := writeMute_eq_done hmute
    obtain ⟨new, hlog, -⟩ := spdifWrites_unmute_names t
    rw [planBind_of_done hmute]
    refine ⟨_ ++ new, ?_, .append (v := muteByte true b) (l := [.readOk 10#8 b, .writeOk 10#8 (muteByte true b)])
      (by simp [PortEvent.reg]) (by simp) (muteByte_getLsbD_zero true b) new⟩
    rw [hlog, h.log, List.append_assoc]
  | raised e addr t =>
    rw [planBind_of_raised hmute]
    exact (hmute ▸ hnames).mutedFirst
  | stopped t =>
    rw [planBind, hmute]
    exact (hmute ▸ hnames).mutedFirst

/-- Settles O45: past its first step, which mutes, the command has written register 10 with bit 0 set; before it, it names
register 10 alone. -/
theorem spdifMutesBeforeItReconfigures : Obligations.SpdifMutesBeforeItReconfigures := by
  intro s t h
  obtain rfl : finishPlain (fmtSpdifPlan s) = t := Host.Outcome.next.inj ((exec_fmtSpdif s).symm.trans h)
  rw [finishPlain_log]
  exact fmtSpdifPlan_mutedFirst s

end Sys2Proof.Machine
end

section
/-! Proofs on the family 60_exceptions: how a command ends, by its report, its flags and the transactions it issued
(spec 60_exceptions.md rules R240 to R248, 30_encoding.md rule R97, 41_control_registry.md rule R150). -/

namespace Sys2Proof.Machine

/-! An illegal word. -/

/-- The report of a refused word is of class ILLEGAL_CMD, not TRANSPORT (R240). -/
theorem decodeReport_class (e : DecodeError) : (decodeReport e).err = 4 ∧ (decodeReport e).isTransport = false := by
  cases e <;> exact ⟨rfl, rfl⟩

/-- Settles O7: the step is `endCommand` right after acceptance, and neither acceptance nor a BUSY point touches the
results, DeviceState or the port. -/
theorem illegalWordEndsAtOnce : Obligations.IllegalWordEndsAtOnce := by
  intro s w rest e ha hi hm hd
  obtain ⟨herr, htransport⟩ := decodeReport_class e
  refine ⟨_, step_cmd_error ha hi hm hd, rfl, rfl, rfl, herr, by cases e <;> rfl, by simp [htransport], rfl, ?_⟩
  simp [SameResults, opField]

/-! CTL.RD. -/

/-- A read plan that ends, ends CTL.RD with no error, also when one of its reads failed (R150, R243). -/
theorem PlanSpec.finishRead_report {regs : List Byte} {n : Nat} {s : State} {r : PlanResult Word}
    (h : PlanSpec regs n s r) (hb : s.fsm = .busy) (ht : (finishRead r).fsm = .idle) :
    (finishRead r).status.report = .ok := by
  cases h with
  | done | readFailed | writeFailed => rfl
  | hung t pre e g => exact nomatch ht.symm.trans (g.fsm.trans hb)
  | left t new g => exact nomatch ht.symm.trans (g.fsm.trans hb)

/-- Settles O23: an id that names no control ends the command before its plan, and the plan of a control ends with no
error. -/
theorem ctlRdNeverReportsATransportError : Obligations.CtlRdNeverReportsATransportError := by
  intro s t ctl hb h ht
  cases hc : controlOfId ctl with
  | none =>
    rw [if_neg (Nat.not_le.2 ((controlOfId_eq_none ctl).1 hc))]
    simp only [exec, execCtlRd, hc] at h
    cases h
    rfl
  | some c =>
    have hlegal : ctl.toNat ≤ 0x14 := Nat.not_lt.1 fun hlt => nomatch hc.symm.trans ((controlOfId_eq_none ctl).2 hlt)
    rw [if_pos hlegal]
    obtain rfl := Host.Outcome.next.inj ((exec_ctlRd hc s).symm.trans h)
    exact (readControl_spec c s).finishRead_report hb ht

/-! The end of a command, in the terms of the state it left. -/

/-- The results of a command do not touch `wrote_any`. -/
theorem ResultStep.wroteAny {i : Instr} {e : Report} {addr : Byte} {u v : State} (h : ResultStep i e addr u v) :
    v.wroteAny = u.wroteAny := by
  rcases h.writes with rfl | ⟨x, rfl⟩ | ⟨-, rfl⟩ | ⟨-, p, relock, d, -, rfl, -⟩ <;> rfl

/-- Command `i` ran from `s`, issued `new` and ended in `t`: the report and the address fit the transactions (R242),
PARTIAL is computed from them (R245), and they stay applied (R248). -/
structure CommandEnd (i : Instr) (new : List PortEvent) (s t : State) : Prop where
  log : t.log = s.log ++ new
  report : EndStep i new t.status.report t.status.failAddr
  isPartial : t.status.isPartial = (t.status.report.isTransport && (s.wroteAny || new.any PortEvent.isWriteOk))
  applied : ∀ a : Byte, (∀ e ∈ new, e.isOk = true ∨ e.writesTo a = false) →
    some (t.periph.read a) = new.foldl (PortEvent.settles a) (some (s.periph.read a))

/-- A run has ended, or the control state is as it was and no transaction failed: each succeeded or is unanswered. -/
theorem CommandRun.ends_or_waits {i : Instr} {s t : State} (h : CommandRun i s t) :
    (t.fsm = .idle ∧ ∃ new, CommandEnd i new s t) ∨
    (t.fsm = s.fsm ∧ ∃ new, t.log = s.log ++ new ∧ ∀ x ∈ new, x.isOk = true ∨ x.isUnanswered = true) := by
  cases h with
  | hung d pre e u _ g ok he =>
    refine .inr ⟨g.fsm, pre ++ [e], g.log, fun x hx => ?_⟩
    rcases List.mem_append.1 hx with hx | hx
    · exact .inl (ok x hx)
    · exact .inr (List.mem_singleton.1 hx ▸ he)
  | left d new u _ g ok => exact .inr ⟨g.fsm, new, g.log, fun x hx => .inl (ok x hx)⟩
  | ended d new u v e addr _ g hr he =>
    obtain ⟨hlog, hperiph, -, -⟩ := hr.noTransaction
    have hwrote : v.wroteAny = (s.wroteAny || new.any PortEvent.isWriteOk) := hr.wroteAny.trans g.wroteAny
    exact .inl ⟨rfl, new, hlog.trans g.log, he, congrArg (e.isTransport && ·) hwrote, fun a ha =>
      (congrArg (fun p => some (p.read a)) hperiph).trans (g.applied a ha)⟩

/-- A command that is IDLE again has ended. -/
theorem commandEnd_of_exec {i : Instr} {s t : State} (h : exec i s = .next t) (hb : s.fsm = .busy)
    (ht : t.fsm = .idle) : ∃ new, CommandEnd i new s t := by
  rcases (run_of_exec h).ends_or_waits with ⟨-, hend⟩ | ⟨hf, -⟩
  · exact hend
  · exact nomatch ht.symm.trans (hf.trans hb)

/-! PARTIAL. -/

/-- The reports of class TRANSPORT are those with its code in ERR (R240). -/
theorem Report.isTransport_iff_err (r : Report) : r.isTransport = true ↔ r.err = 2 := by cases r <;> decide

/-- Some transaction of a list is a write that succeeded. -/
theorem any_isWriteOk_iff (new : List PortEvent) :
    new.any PortEvent.isWriteOk = true ↔ ∃ a v, PortEvent.writeOk a v ∈ new := by
  rw [List.any_eq_true]
  constructor
  · rintro ⟨e, he, hw⟩
    cases e with
    | writeOk a v => exact ⟨a, v, he⟩
    | _ => cases hw
  · rintro ⟨a, v, he⟩
    exact ⟨_, he, rfl⟩

/-- Settles O52: PARTIAL is what the end of the command computes from its report and from `wrote_any`, which the
command's own writes have set; an illegal word's report is not of class TRANSPORT. -/
theorem partialMeansAWriteSucceededFirst : Obligations.PartialMeansAWriteSucceededFirst := by
  refine ⟨fun i s t hb hw h ht => ?_, fun s t w rest e ha hi hm hd h => ?_⟩
  · obtain ⟨new, hend⟩ := commandEnd_of_exec h hb ht
    refine ⟨new, hend.log, ?_⟩
    rw [hend.isPartial, hw, Bool.false_or, Bool.and_eq_true, Report.isTransport_iff_err, any_isWriteOk_iff]
  · obtain ⟨t', ht', -, -, -, -, -, hpartial, -⟩ := illegalWordEndsAtOnce s w rest e ha hi hm hd
    obtain rfl := Host.Outcome.next.inj (ht'.symm.trans h)
    exact hpartial

/-! TRANSPORT. -/

/-- The transaction `e` failed, and report `r` and address `addr` say so (R242). -/
def ReportsFailure (r : Report) (addr : Byte) (e : PortEvent) : Prop :=
  (r = .transportRead ∧ e = .readFailed addr) ∨ (r = .transportWrite ∧ ∃ v, e = .writeFailed addr v)

/-- A TRANSPORT report is that of the last transaction, and those before it succeeded (R242, R248). -/
theorem EndStep.failure_of_transport {i : Instr} {new : List PortEvent} {r : Report} {addr : Byte}
    (h : EndStep i new r addr) (hr : r.isTransport = true) :
    ∃ pre e, new = pre ++ [e] ∧ (∀ x ∈ pre, x.isOk = true) ∧ ReportsFailure r addr e := by
  cases h with
  | clean _ _ hc => exact nomatch hr.symm.trans hc
  | readFailed _ pre hn ok => exact ⟨pre, _, hn, ok, .inl ⟨rfl, rfl⟩⟩
  | writeFailed _ v pre hn ok => exact ⟨pre, _, hn, ok, .inr ⟨rfl, v, rfl⟩⟩
  | degraded => cases hr

/-- Any command but CTL.RD with a transaction that did not succeed ends with TRANSPORT (R242). -/
theorem EndStep.transport_of_not_ok {i : Instr} {new : List PortEvent} {r : Report} {addr : Byte} {e : PortEvent}
    (h : EndStep i new r addr) (hi : ∀ ctl, i ≠ .ctlRd ctl) (he : e ∈ new) (hf : e.isOk = false) :
    r.isTransport = true := by
  cases h with
  | clean _ ok => exact nomatch hf.symm.trans (ok e he)
  | readFailed | writeFailed => rfl
  | degraded _ ctl _ _ _ hc => exact absurd hc (hi ctl)

/-- A transaction that is no write to a register settles nothing about it. -/
theorem PortEvent.settles_of_not_writesTo {a : Byte} {e : PortEvent} (h : e.writesTo a = false) (k : Option Byte) :
    PortEvent.settles a k e = k := by
  cases e with
  | readOk | readFailed | readUnanswered => rfl
  | writeOk b | writeFailed b | writeUnanswered b => exact if_neg fun hab => of_decide_eq_false h hab.symm

/-- A failed transaction writes at most the register of the reported address, and a failed read none. -/
theorem ReportsFailure.not_writesTo {r : Report} {addr a : Byte} {e : PortEvent} (h : ReportsFailure r addr e)
    (ha : r = .transportRead ∨ a ≠ addr) : e.writesTo a = false := by
  rcases h with ⟨-, rfl⟩ | ⟨rfl, v, rfl⟩
  · rfl
  · exact decide_eq_false (ha.resolve_left nofun).symm

/-- A register that the last transaction did not write holds what the ones before it left (R248). -/
theorem CommandEnd.applied_before {i : Instr} {pre : List PortEvent} {e : PortEvent} {s t : State} {a : Byte}
    (h : CommandEnd i (pre ++ [e]) s t) (ok : ∀ x ∈ pre, x.isOk = true) (ha : e.writesTo a = false) :
    some (t.periph.read a) = pre.foldl (PortEvent.settles a) (some (s.periph.read a)) := by
  have hall : ∀ x ∈ pre ++ [e], x.isOk = true ∨ x.writesTo a = false := fun x hx => by
    rcases List.mem_append.1 hx with hx | hx
    · exact .inl (ok x hx)
    · exact .inr (List.mem_singleton.1 hx ▸ ha)
  rw [h.applied a hall, List.foldl_append]
  exact PortEvent.settles_of_not_writesTo ha _

/-- A transaction that failed neither succeeded nor is unanswered. -/
theorem PortEvent.answered_of_failed {e : PortEvent} {a : Byte} (h : e = .readFailed a ∨ ∃ v, e = .writeFailed a v) :
    e.isOk = false ∧ e.isUnanswered = false := by
  rcases h with rfl | ⟨v, rfl⟩ <;> exact ⟨rfl, rfl⟩

/-- A command with a failed transaction has ended: what is in progress has none. -/
theorem CommandRun.ends_of_failed {i : Instr} {s t : State} {new : List PortEvent} {e : PortEvent}
    (h : CommandRun i s t) (hl : t.log = s.log ++ new) (he : e ∈ new) (hok : e.isOk = false)
    (hu : e.isUnanswered = false) : t.fsm = .idle ∧ CommandEnd i new s t := by
  rcases h.ends_or_waits with ⟨ht, new', hend⟩ | ⟨-, new', hl', hnew⟩
  · obtain rfl := List.append_cancel_left (hl.symm.trans hend.log)
    exact ⟨ht, hend⟩
  · obtain rfl := List.append_cancel_left (hl.symm.trans hl')
    rcases hnew e he with h | h
    · exact nomatch hok.symm.trans h
    · exact nomatch hu.symm.trans h

/-- Where all but the last transaction of a list succeeded, one that did not is the last. -/
theorem eq_last_of_not_ok {pre : List PortEvent} {e x : PortEvent} (ok : ∀ y ∈ pre, y.isOk = true)
    (hx : x ∈ pre ++ [e]) (hf : x.isOk = false) : x = e := by
  rcases List.mem_append.1 hx with hx | hx
  · exact nomatch hf.symm.trans (ok x hx)
  · exact List.mem_singleton.1 hx

/-- Settles O53: a TRANSPORT report is that of the last transaction; and a failed transaction ends any command but
CTL.RD with TRANSPORT, so it is the one reported. -/
theorem transportErrorsArePrecise : Obligations.TransportErrorsArePrecise := by
  refine ⟨fun i s t hb h ht hr => ?_, fun i s t new e a _ hi h hl he hf => ?_⟩
  · obtain ⟨new, hend⟩ := commandEnd_of_exec h hb ht
    obtain ⟨pre, e, rfl, ok, hfail⟩ := hend.report.failure_of_transport hr
    exact ⟨pre, e, by rw [hend.log, List.append_assoc], ok, hfail, fun a ha =>
      hend.applied_before ok (hfail.not_writesTo ha)⟩
  · obtain ⟨hok, hu⟩ := PortEvent.answered_of_failed hf
    obtain ⟨ht, hend⟩ := (run_of_exec h).ends_of_failed hl he hok hu
    obtain ⟨pre, e', rfl, ok, hfail⟩ := hend.report.failure_of_transport (hend.report.transport_of_not_ok hi he hok)
    obtain rfl := eq_last_of_not_ok ok he hok
    have hlast : e ∉ pre := fun hm => nomatch hok.symm.trans (ok e hm)
    refine ⟨ht, ?_⟩
    rcases hfail with ⟨hr, rfl⟩ | ⟨hr, v, rfl⟩
    · have ha : t.status.failAddr = a := by simpa using hf
      exact ⟨ha, fun _ => hr, fun hn => absurd (by rw [ha]) hn, pre, rfl, hlast⟩
    · have ha : t.status.failAddr = a := by simpa using hf
      exact ⟨ha, nofun, fun _ => hr, pre, rfl, hlast⟩

end Sys2Proof.Machine
end

section
/-! Proofs on the family 70_reset_and_hazards: the moves attach and detach, and a command that is left in progress, by a
port that never answers or by a host that detaches (spec 70_reset_and_hazards.md rules R270 to R272, R289). -/

namespace Sys2Proof.Machine

/-! Attach and detach. -/

section
variable {s : State} {rest : List HostMove}

theorem step_attach {c : Cfg} (hm : s.host.moves = .attach c :: rest) (ha : s.attached = false)
    (hc : c.wellFormed = true) : step s = .next (attachBlock c (s.setMoves rest)) := by
  simp [step, engineStep, hm, hostMove, ha, hc]

theorem step_detach (hm : s.host.moves = .detach :: rest) (ha : s.attached = true) :
    step s = .next (detachBlock (s.setMoves rest)) := by
  simp [step, engineStep, hm, hostMove, ha]

end

theorem attachBlock_atAttach (c : Cfg) (s : State) : BlockAtAttach (attachBlock c s) :=
  ⟨rfl, rfl, rfl, rfl, rfl, rfl, rfl, rfl, rfl, rfl, rfl, rfl, rfl, rfl, rfl, rfl⟩

/-- A detached block stands at the values of attach (R272; notes/assumptions/16.md). -/
theorem detachBlock_atAttach (s : State) : BlockAtAttach (detachBlock s) := attachBlock_atAttach s.cfg s

/-- Settles O57: neither move touches the peripheral, the log or the port, and each puts the block at its values of
attach. -/
theorem attachAndDetachMoves : Obligations.AttachAndDetachMoves := fun _ _ =>
  ⟨fun c hm ha hc => ⟨_, step_attach hm ha hc, rfl, attachBlock_atAttach c _, rfl, rfl, rfl, rfl, rfl⟩,
    fun hm ha => ⟨_, step_detach hm ha, rfl, detachBlock_atAttach _, rfl, rfl, rfl, rfl, rfl⟩⟩

/-! A command left in progress. -/

/-- Command `i` went from `s` to `t` with the transactions `new`, after the update of DeviceState its rule makes. -/
def Ran (i : Instr) (new : List PortEvent) (s t : State) : Prop :=
  ∃ d, Effect (commandRegisters i) (commandTransactions i) new (s.setDs d) t

/-- A command that is still BUSY waits for the answer of its last transaction, or the host detaches next; every
transaction before that succeeded (R289, R272). -/
theorem CommandRun.waits_or_left {i : Instr} {s t : State} (h : CommandRun i s t) (ht : t.fsm = .busy) :
    (∃ pre e, Ran i (pre ++ [e]) s t ∧ (∀ x ∈ pre, x.isOk = true) ∧ e.isUnanswered = true) ∨
      ∃ new u, Ran i new s u ∧ (∀ x ∈ new, x.isOk = true) ∧ t = u.leave := by
  cases h with
  | hung d pre e _ _ g ok he => exact .inl ⟨pre, e, ⟨d, g⟩, ok, he⟩
  | left d new u _ g ok => exact .inr ⟨new, u, ⟨d, g⟩, ok, rfl⟩
  | ended => cases ht

/-- A command that changed the host's moves was left by a detach (R272). -/
theorem CommandRun.left_of_moves {i : Instr} {s t : State} (h : CommandRun i s t)
    (hm : t.host.moves ≠ s.host.moves) :
    ∃ new u, Ran i new s u ∧ (∀ x ∈ new, x.isOk = true) ∧ t = u.leave := by
  cases h with
  | hung d pre e _ _ g => exact absurd g.host_moves hm
  | left d new u _ g ok => exact ⟨new, u, ⟨d, g⟩, ok, rfl⟩
  | ended d new u v e addr _ g hr =>
    obtain ⟨-, -, -, -, -, -, -, -, hmoves⟩ := hr.sameInputs
    exact absurd (hmoves.trans g.host_moves) hm

/-- What the host sees of the block, but for OVERRUN and the words it reads, is as it was while a command is in progress
(R96, R76). -/
theorem Ran.shown {i : Instr} {new : List PortEvent} {s t : State} (h : Ran i new s t) :
    SameResults s t ∧ t.status.done = s.status.done ∧ t.status.report = s.status.report ∧ t.devstate = s.devstate :=
  let ⟨_, g⟩ := h
  ⟨g.sameResults, g.status_done, g.status_report, g.devstate⟩

theorem Ran.log {i : Instr} {new : List PortEvent} {s t : State} (h : Ran i new s t) : t.log = s.log ++ new :=
  let ⟨_, g⟩ := h
  g.log

theorem Ran.moves {i : Instr} {new : List PortEvent} {s t : State} (h : Ran i new s t) :
    t.host.moves = s.host.moves :=
  let ⟨_, g⟩ := h
  g.host_moves

theorem PortEvent.answered_of_isOk {x : PortEvent} (h : x.isOk = true) : x.isUnanswered = false := by
  cases x with
  | readOk | writeOk => rfl
  | _ => cases h

/-- No transaction of a command that ended is unanswered (R289). -/
theorem EndStep.answered {i : Instr} {new : List PortEvent} {r : Report} {addr : Byte} (h : EndStep i new r addr) :
    ∀ x ∈ new, x.isUnanswered = false := by
  have snoc {pre : List PortEvent} {e : PortEvent} (ok : ∀ x ∈ pre, x.isOk = true) (he : e.isUnanswered = false) :
      ∀ x ∈ pre ++ [e], x.isUnanswered = false :=
    List.forall_mem_append.2 ⟨fun x hx => PortEvent.answered_of_isOk (ok x hx), by simpa using he⟩
  cases h with
  | clean _ ok => exact fun x hx => PortEvent.answered_of_isOk (ok x hx)
  | readFailed _ pre hn ok => exact hn ▸ snoc ok rfl
  | writeFailed _ v pre hn ok => exact hn ▸ snoc ok rfl
  | degraded _ ctl pre hn ok => exact hn ▸ snoc ok rfl

/-- A command with an unanswered transaction has not ended. -/
theorem CommandRun.waits_of_unanswered {i : Instr} {s t : State} {new : List PortEvent} {e : PortEvent}
    (h : CommandRun i s t) (hl : t.log = s.log ++ new) (he : e ∈ new) (hu : e.isUnanswered = true) :
    t.fsm = s.fsm := by
  rcases h.ends_or_waits with ⟨-, new', hend⟩ | ⟨hf, -⟩
  · obtain rfl := List.append_cancel_left (hl.symm.trans hend.log)
    exact nomatch hu.symm.trans (hend.report.answered e he)
  · exact hf

theorem planBind_of_stopped {α β : Type} {p : Plan α} {f : α → Plan β} {s t : State} (h : p s = .stopped t) :
    planBind p f s = .stopped t := by
  rw [planBind, h]

theorem memRead_never {a : Byte} {s : State} (h : s.outcomeAt 0 = some .never) :
    memRead a s = .stopped ((busyPoint s.useAnswer).issued (.readUnanswered a)) := by
  simp [memRead, h]

theorem exec_muteSet_never {s : State} (h : s.outcomeAt 0 = some .never) :
    exec .muteSet s = .next
      ((busyPoint (s.setDs { s.ds with forceMute := true }).useAnswer).issued (.readUnanswered 10#8)) := by
  have hread : muteSetPlan s = .stopped _ := planBind_of_stopped (memRead_never (a := 10#8) h)
  simp only [exec, execMuteSet, hread]
  rfl

theorem step_stuck {s : State} (hb : s.fsm = .busy) (hm : s.host.moves = []) : step s = .fault .portNeverAnswers := by
  simp [step, engineStep, hm, hb]

/-- Settles O54: a run that is still BUSY changed nothing the host sees, and one that ended has no unanswered
transaction. -/
theorem silentPortLeavesTheBlockBusy : Obligations.SilentPortLeavesTheBlockBusy := by
  refine ⟨fun i s t hb h ht => ?_, fun s hb hn => ?_, fun i s t pre e hb h hl hu => ?_, fun s hb hm => step_stuck hb hm⟩
  · rcases (run_of_exec h).waits_or_left ht with ⟨pre, e, g, ok, he⟩ | ⟨new, u, g, ok, rfl⟩
    · obtain ⟨hres, hdone, hrep, hdev⟩ := g.shown
      exact ⟨hres, hdone, hrep, hdev, .inl ⟨g.moves, pre, e, by rw [g.log, List.append_assoc], ok, he⟩⟩
    · obtain ⟨hres, hdone, hrep, hdev⟩ := g.shown
      exact ⟨hres, hdone, hrep, hdev, .inr ⟨congrArg (HostMove.detach :: ·) g.moves, new, g.log, ok⟩⟩
  · exact ⟨_, exec_muteSet_never hn, by simpa using hb, by simp⟩
  · rw [List.append_assoc] at hl
    exact ((run_of_exec h).waits_of_unanswered hl (by simp) hu).trans hb

/-! A command the host leaves. -/

theorem memWrite_left {a v : Byte} {s : State} (h : s.outcomeAt 0 = none) : memWrite a v s = .stopped s.leave := by
  simp [memWrite, h]

/-- A detach before the `k`-th write ends the sequence; the writes before it stay applied (R272). -/
theorem writeAll_left {l : List (Byte × Byte)} {k : Nat} {s : State} (hk : k < l.length) (hs : s.portServes k)
    (hd : s.outcomeAt k = none) :
    ∃ t, writeAll l s = .stopped t.leave ∧ Effect ((l.take k).map Prod.fst) k (writeEvents (l.take k)) s t := by
  induction l generalizing s k with
  | nil => cases hk
  | cons q l ih =>
    obtain ⟨a, v⟩ := q
    cases k with
    | zero => exact ⟨s, planBind_of_stopped (memWrite_left hd), .refl [] s⟩
    | succ k =>
      have hwrite := Effect.writeOk a v s
      obtain ⟨t, ht, h⟩ := ih (Nat.lt_of_succ_lt_succ hk) (hwrite.portServes hs) ((hwrite.outcomes k).trans hd)
      refine ⟨t, ?_, ?_⟩
      · rw [writeAll, planBind_of_done (memWrite_ok (hs 0 (by simp))), ht]
      · exact ((hwrite.mono (by simp) le_rfl).trans (h.mono (by simp +contextual) le_rfl)).mono (fun _ => id)
          (Nat.add_comm _ _).le

/-- CTL.WR VOLUME of a legal index that the host leaves before its `k`-th write (R145, R272). -/
theorem exec_ctlWr_volume_left {s : State} {k : Nat} (hv : s.opArg0.toNat ≤ 199) (hk : k < 4) (hs : s.portServes k)
    (hd : s.outcomeAt k = none) :
    ∃ t new, exec (.ctlWr 0x00#8) s = .next t.leave ∧ new.length = k ∧
      Effect ([23#8, 22#8, 21#8, 20#8].take k) k new s t := by
  obtain ⟨t, ht, h⟩ :=
    writeAll_left (l := volumeBytes (BitVec.ofNat 32 (volForward s.cfg s.opArg0.toNat))) hk hs hd
  rw [List.map_take] at h
  refine ⟨t, _, ?_, ?_, h⟩
  · have hstop : writeControl .volume s.opArg0 s = .stopped t.leave := (volWrite_eq _ s).trans ht
    rw [exec_ctlWr_of_allowed (c := .volume) rfl hv, hstop]
    rfl
  · exact (writeEvents_length _).trans (List.length_take_of_le (Nat.le_of_lt hk))

/-- Settles O60: only a detach makes the host's moves others, each transaction before it succeeded, and the next step is
the detach itself. -/
theorem detachAbandonsTheCommand : Obligations.DetachAbandonsTheCommand := by
  refine ⟨fun i s t ha hb h hm => ?_, fun s k hv hk hs hd => ?_⟩
  · obtain ⟨new, u, g, ok, rfl⟩ := (run_of_exec h).left_of_moves hm
    have hmoves : u.leave.host.moves = .detach :: s.host.moves := congrArg (HostMove.detach :: ·) g.moves
    have hlog := g.log
    obtain ⟨d, g⟩ := g
    exact ⟨new, _, g.fsm.trans hb, hlog, ok, fun a => g.applied a fun e he => .inl (ok e he), hmoves,
      step_detach hmoves (g.attached.trans ha), rfl, detachBlock_atAttach _, rfl, rfl, rfl⟩
  · obtain ⟨t, new, ht, hlen, g⟩ := exec_ctlWr_volume_left hv hk hs hd
    refine ⟨_, ht, congrArg (HostMove.detach :: ·) g.host_moves, ?_, g.frame⟩
    rw [State.leave_log, g.log, List.length_append, hlen]

end Sys2Proof.Machine
end

section
/-! Proofs on the family 70_reset_and_hazards: the hardware mute bit after a command of the sequencer that failed (spec
70_reset_and_hazards.md rule R284, 43_mute_sequencer.md rule R217). -/

namespace Sys2Proof.Machine

/-! What a plan that raised an error did. -/

/-- A plan in sequence raised its error in its first part or in what follows it. -/
theorem planBind_eq_raised {α β : Type} {p : Plan α} {f : α → Plan β} {e : Report} {addr : Byte} {s u : State}
    (h : planBind p f s = .raised e addr u) :
    p s = .raised e addr u ∨ ∃ a t, p s = .done a t ∧ f a t = .raised e addr u := by
  cases hp : p s with
  | done a t => exact .inr ⟨a, t, rfl, (planBind_of_done hp).symm.trans h⟩
  | raised e' addr' t =>
    cases (planBind_of_raised hp).symm.trans h
    exact .inl rfl
  | stopped t => cases (planBind_of_stopped hp).symm.trans h

/-- A failed read leaves the peripheral as it was (R64). -/
theorem memRead_eq_raised {a addr : Byte} {e : Report} {s t : State} (h : memRead a s = .raised e addr t) :
    addr = a ∧ t.periph = s.periph := by
  unfold memRead at h
  split at h <;> cases h
  exact ⟨rfl, by simp⟩

theorem memWrite_eq_raised {a v addr : Byte} {e : Report} {s t : State} (h : memWrite a v s = .raised e addr t) :
    addr = a ∧ e = .transportWrite := by
  unfold memWrite at h
  split at h <;> cases h
  exact ⟨rfl, rfl⟩

/-- A field write fails at its register, and if its read failed it has written nothing (R141, R248). -/
theorem fieldWrite_eq_raised {reg mask addr : Byte} {shift : Nat} {code : Byte} {e : Report} {s t : State}
    (h : fieldWrite reg mask shift code s = .raised e addr t) :
    addr = reg ∧ (e = .transportRead → t.periph = s.periph) := by
  unfold fieldWrite at h
  split at h
  · obtain ⟨haddr, rfl⟩ := memWrite_eq_raised h
    exact ⟨haddr, nofun⟩
  · rcases planBind_eq_raised h with hread | ⟨b, u, -, hwrite⟩
    · obtain ⟨haddr, hperiph⟩ := memRead_eq_raised hread
      exact ⟨haddr, fun _ => hperiph⟩
    · obtain ⟨haddr, rfl⟩ := memWrite_eq_raised hwrite
      exact ⟨haddr, nofun⟩

/-- The unmuting step can fail only where it writes the mute bit. -/
theorem unmuteIfAllowed_eq_raised {e : Report} {addr : Byte} {s t : State}
    (h : unmuteIfAllowed s = .raised e addr t) : writeMute false s = .raised e addr t := by
  unfold unmuteIfAllowed at h
  split at h
  · cases h
  · exact h

theorem PlanSpec.effect_of_raised {α : Type} {regs : List Byte} {n : Nat} {s t : State} {e : Report} {addr : Byte}
    {r : PlanResult α} (h : PlanSpec regs n s r) (hr : r = .raised e addr t) : ∃ new, Effect regs n new s t := by
  cases h with
  | readFailed | writeFailed => cases hr; exact ⟨_, ‹_›⟩
  | _ => cases hr

/-- Where FMT.SPDIF can fail: at its mute, or, with the device muted, at the writes that reconfigure it, which leave it
muted, or at the write that unmutes it (R215, R284). -/
theorem fmtSpdifPlan_eq_raised {e : Report} {addr : Byte} {s t : State} (h : fmtSpdifPlan s = .raised e addr t) :
    writeMute true s = .raised e addr t ∨ t.muteBit = true ∨
      ∃ u, u.muteBit = true ∧ writeMute false u = .raised e addr t := by
  rw [fmtSpdifPlan_eq] at h
  rcases planBind_eq_raised h with hmute | ⟨_, u, hmute, h⟩
  · exact .inl hmute
  have hu : u.muteBit = true := muteBit_of_writeMute hmute
  rcases planBind_eq_raised h with hspdif | ⟨_, v, hspdif, h⟩
  · obtain ⟨new, g⟩ := (spdifWrites_spec u).effect_of_raised hspdif
    exact .inr (.inl ((g.muteBit (by decide)).trans hu))
  · obtain ⟨new, g⟩ := (hspdif ▸ spdifWrites_spec u).effect_of_done
    exact .inr (.inr ⟨v, (g.muteBit (by decide)).trans hu, unmuteIfAllowed_eq_raised h⟩)

/-! What a command that ended with TRANSPORT did. -/

/-- A plan that left the block IDLE with TRANSPORT raised that error (R242, R289, R272). -/
theorem PlanSpec.raised_of_ended_transport {regs : List Byte} {n : Nat} {s : State} {r : PlanResult Unit}
    (h : PlanSpec regs n s r) (hb : s.fsm = .busy) (hi : (finishPlain r).fsm = .idle)
    (hr : (finishPlain r).status.report.isTransport = true) : ∃ e addr t, r = .raised e addr t := by
  cases h with
  | done => cases hr
  | readFailed addr t | writeFailed addr v t => exact ⟨_, addr, t, rfl⟩
  | hung t pre e g => cases hb.symm.trans (g.fsm.symm.trans hi)
  | left t new g => cases hb.symm.trans (g.fsm.symm.trans hi)

/-- The commands that write register 10 alone (R211 to R214, R216). -/
def muteCommands : List Instr := [.streamStart, .streamStop, .muteSet, .muteClr, .muteMode]

/-- Each of them updates DeviceState, and then writes the mute bit or ends with no transaction. -/
theorem exec_muteCommand {i : Instr} (hi : i ∈ muteCommands) (s : State) :
    ∃ d, (∃ v, exec i s = .next (finishPlain (writeMute v (s.setDs d)))) ∨
      ∃ e, e.isTransport = false ∧ exec i s = .next (endCommand e 0#8 (s.setDs d)) := by
  simp only [muteCommands, List.mem_cons, List.not_mem_nil, or_false] at hi
  rcases hi with rfl | rfl | rfl | rfl | rfl
  · cases hf : s.ds.forceMute with
    | true => exact ⟨_, .inr ⟨.ok, rfl, streamStartPlan_of_forced hf ▸ exec_streamStart s⟩⟩
    | false => exact ⟨_, .inl ⟨false, streamStartPlan_of_not_forced hf ▸ exec_streamStart s⟩⟩
  · cases hm : s.ds.muteMode with
    | never => exact ⟨_, .inr ⟨.ok, rfl, streamStopPlan_of_never hm ▸ exec_streamStop s⟩⟩
    | onIdle => exact ⟨_, .inl ⟨true, streamStopPlan_of_onIdle hm ▸ exec_streamStop s⟩⟩
  · exact ⟨_, .inl ⟨_, rfl⟩⟩
  · exact ⟨_, .inl ⟨_, rfl⟩⟩
  · cases hm : muteModeOperand s.opArg0 with
    | none => exact ⟨s.ds, .inr ⟨.outOfRange, rfl, exec_muteMode_of_none hm⟩⟩
    | some m => exact ⟨_, .inl ⟨_, exec_muteMode_of_some hm⟩⟩

section
variable {s t : State} (hb : s.fsm = .busy) (ht : t.fsm = .idle)
include hb ht

/-- A command that writes register 10 alone and ends with TRANSPORT failed in that write. -/
theorem writeMute_raised_of_exec {i : Instr} (hi : i ∈ muteCommands) (h : exec i s = .next t)
    (hr : t.status.report.isTransport = true) :
    ∃ d v e addr u, writeMute v (s.setDs d) = .raised e addr u ∧ t = endCommand e addr u := by
  obtain ⟨d, ⟨v, hx⟩ | ⟨e, he, hx⟩⟩ := exec_muteCommand hi s
  · obtain rfl := Host.Outcome.next.inj (hx.symm.trans h)
    obtain ⟨e, addr, u, hu⟩ := (writeMute_spec v (s.setDs d)).raised_of_ended_transport hb ht hr
    exact ⟨d, v, e, addr, u, hu, by rw [hu]; rfl⟩
  · obtain rfl := Host.Outcome.next.inj (hx.symm.trans h)
    exact nomatch he.symm.trans hr

theorem fmtSpdifPlan_raised_of_exec (h : exec .fmtSpdif s = .next t) (hr : t.status.report.isTransport = true) :
    ∃ e addr u, fmtSpdifPlan s = .raised e addr u ∧ t = endCommand e addr u := by
  obtain rfl := Host.Outcome.next.inj ((exec_fmtSpdif s).symm.trans h)
  obtain ⟨e, addr, u, hu⟩ := (fmtSpdifPlan_spec s).raised_of_ended_transport hb ht hr
  exact ⟨e, addr, u, hu, by rw [hu]; rfl⟩

/-- FMT.SPDIF that fails at register 8 or 17 has muted the device and not reached the write that unmutes it (R284). -/
theorem muted_of_fmtSpdif_failed (h : exec .fmtSpdif s = .next t) (hr : t.status.report.isTransport = true)
    (ha : t.status.failAddr ∈ [8#8, 17#8]) : t.muteBit = true := by
  obtain ⟨e, addr, u, hu, rfl⟩ := fmtSpdifPlan_raised_of_exec hb ht h hr
  have hne : addr ≠ 10#8 := by
    rintro rfl
    exact absurd ha (by simp)
  rcases fmtSpdifPlan_eq_raised hu with hmute | hmuted | ⟨v, -, hunmute⟩
  · exact absurd (fieldWrite_eq_raised hmute).1 hne
  · exact hmuted
  · exact absurd (fieldWrite_eq_raised hunmute).1 hne

/-- FMT.SPDIF that fails to read register 10 failed before it muted the device or before it unmuted it (R284). -/
theorem muteBit_of_fmtSpdif_read_failed (h : exec .fmtSpdif s = .next t) (hr : t.status.report = .transportRead) :
    t.muteBit = s.muteBit ∨ t.muteBit = true := by
  obtain ⟨e, addr, u, hu, rfl⟩ := fmtSpdifPlan_raised_of_exec hb ht h (hr ▸ rfl)
  have bitKept {v : Bool} {w : State} (hw : writeMute v w = .raised e addr u) : u.muteBit = w.muteBit :=
    congrArg (fun p : Peripheral => (p.read 10#8).getLsbD 0) ((fieldWrite_eq_raised hw).2 hr)
  rcases fmtSpdifPlan_eq_raised hu with hmute | hmuted | ⟨v, hv, hunmute⟩
  · exact .inl (bitKept hmute)
  · exact .inr hmuted
  · exact .inr ((bitKept hunmute).trans hv)

end

/-- Settles O46: a write of the mute bit whose read failed has written nothing, and FMT.SPDIF is muted from its first step
to its last. -/
theorem muteBitAfterAFailure : Obligations.MuteBitAfterAFailure := by
  intro i s t hb h ht
  refine ⟨fun hi hr => ?_, ?_, ?_⟩
  · obtain ⟨d, v, e, addr, u, hu, rfl⟩ := writeMute_raised_of_exec hb ht hi h (hr ▸ rfl)
    obtain ⟨haddr, hperiph⟩ := fieldWrite_eq_raised hu
    exact ⟨haddr, hperiph hr⟩
  · rintro rfl
    exact muted_of_fmtSpdif_failed hb ht h
  · rintro rfl hr -
    exact muteBit_of_fmtSpdif_read_failed hb ht h hr

end Sys2Proof.Machine
end
